-- ==== Sys2Proof/Word.lean ====
section
/-!
DEFINITION. The word types of the DTB block: the widths the spec gives its ports and registers
(spec/20_memory.md R31, R32; spec/10_state.md R10), and the names of its axes, modes and event
sources. Bit 0 is the least significant bit and every quantity is unsigned
(spec/00_scope.md R7).
-/

namespace Sys2Proof

/-- A raw analog sample, `smp_raw`: 12 bits, 0..4095 (R31). -/
abbrev Sample := BitVec 12

/-- A duty level: 13 bits, since the largest level is 4096 (R15, R101). -/
abbrev Level := BitVec 13

/-- A display offset, `res_off`: 7 bits (R32, R104). -/
abbrev Offset := BitVec 7

/-- The two joystick axes; `smp_axis` names one (R54). -/
inductive Axis where
  | horizontal
  | vertical
deriving DecidableEq, Repr

/-- The operating state of the block: RUN, or the absorbing programming mode PROG (R14). -/
inductive Mode where
  | run
  | prog
deriving DecidableEq, Repr

/-- The value of the one-bit register `mode`: 0 = RUN, 1 = PROG (R10). -/
def Mode.bit : Mode → BitVec 1
  | .run => 0#1
  | .prog => 1#1

/-- The source identifier of an event, by the name of the operation it selects (R52). -/
inductive EvSource where
  | none
  | prog
  | led
  | pwm
deriving DecidableEq, Repr

end Sys2Proof
end

