-- ==== Sys2Proof/Config.lean ====
section
/-!
DEFINITION. The constants the spec fixes (spec/00_scope.md R5) and the parameters it leaves open,
fixed when the block is instantiated (R6, spec/92_eei_decisions.md D22).
-/

namespace Sys2Proof

/-! ## Constants (R5) -/

/-- The debounce window in microseconds: an event is discarded when elapsed is at most this. -/
abbrev debounceUs : Nat := 200000

/-- The duty level that stands for fraction 1. -/
abbrev maxDuty : Nat := 4096

/-- Horizontal: the above-branch is taken for samples greater than this. -/
abbrev hThHi : Nat := 2000

/-- Horizontal: the below-branch is taken for samples less than this. -/
abbrev hThLo : Nat := 1900

/-- Horizontal above-branch divisor. -/
abbrev hDivHi : Nat := 2088

/-- Horizontal below-branch divisor. -/
abbrev hDivLo : Nat := 1900

/-- Horizontal offset at fraction 0. -/
abbrev hCenter : Nat := 60

/-- Horizontal offset span per unit fraction. -/
abbrev hScale : Nat := 60

/-- Vertical: the above-branch is taken for samples greater than this, else the below-branch. -/
abbrev vTh : Nat := 2100

/-- Vertical offset at fraction 0, `V_CENTER` (R6, fixed by D13). -/
abbrev vCenter : Nat := 30

/-- Vertical offset span per unit fraction, `V_SCALE` (R6, fixed by D13). -/
abbrev vScale : Nat := 30

/-- The offset of a dead-zone sample, `H_DZ_OFFSET` (R6, fixed by D11). -/
abbrev hDzOffset : Nat := 60

/-- The least legal `TSW` (R6). -/
abbrev minTsw : Nat := 18

/-! ## Parameters (R6) -/

/-- The two legal assignments of the vertical divisors {1988, 2100} (R6, D12). -/
inductive VDivs where
  /-- `V_DIV_ABOVE` = 1988, `V_DIV_BELOW` = 2100: the default. -/
  | listed
  /-- `V_DIV_ABOVE` = 2100, `V_DIV_BELOW` = 1988: the only legal alternative. -/
  | swapped
deriving DecidableEq, Repr

/-- `V_DIV_ABOVE` (R6). -/
def VDivs.above : VDivs → Nat
  | .listed => 1988
  | .swapped => 2100

/-- `V_DIV_BELOW` (R6). -/
def VDivs.below : VDivs → Nat
  | .listed => 2100
  | .swapped => 1988

/-- One legal instantiation of the block: a value for each parameter of R6. An illegal `TSW` or
divisor pair has no value here, so it is refused at construction (93_implementation_defined.md
U16, U17; `RawConfig.build`). -/
structure Config where
  /-- `TSW`: the width in bits of a timestamp. -/
  tsw : Nat
  /-- `V_DIV_ABOVE` and `V_DIV_BELOW`. -/
  vDivs : VDivs
  /-- `RST_LED_ON`: the value RESET gives `led_on`. -/
  rstLedOn : Bool
  /-- `RST_PWM_EN`: the value RESET gives `pwm_en`. -/
  rstPwmEn : Bool
  /-- `INVERT_CONST`: the constant value of the output `disp_invert`. -/
  invertConst : Bool
  /-- `TSW` is at least 18 (R6). -/
  tsw_legal : minTsw ≤ tsw
deriving DecidableEq, Repr

/-- The parameters at the defaults of R6. -/
def Config.default : Config where
  tsw := 64
  vDivs := .listed
  rstLedOn := false
  rstPwmEn := true
  invertConst := false
  tsw_legal := by decide

/-- Parameter values as an instantiation writes them down, before they are checked (R6). -/
structure RawConfig where
  tsw : Nat
  vDivAbove : Nat
  vDivBelow : Nat
  rstLedOn : Bool
  rstPwmEn : Bool
  invertConst : Bool
deriving DecidableEq, Repr

/-- Why an instantiation is refused (93_implementation_defined.md U16, U17). -/
inductive ConfigError where
  /-- `TSW` is less than 18 (U16). -/
  | timestampTooNarrow (tsw : Nat)
  /-- The vertical divisors are neither (1988, 2100) nor (2100, 1988) (U17). -/
  | illegalDivisors (above below : Nat)
deriving DecidableEq, Repr

/-- The legal assignment a pair of vertical divisors is, if it is one (R6). -/
def VDivs.ofPair (above below : Nat) : Option VDivs :=
  if above = 1988 ∧ below = 2100 then some .listed
  else if above = 2100 ∧ below = 1988 then some .swapped
  else none

/-- Instantiate the block: the configuration of legal parameter values, a named refusal of the
others (R6, U16, U17). -/
def RawConfig.build (r : RawConfig) : Except ConfigError Config :=
  if h : minTsw ≤ r.tsw then
    match VDivs.ofPair r.vDivAbove r.vDivBelow with
    | some v => .ok
        { tsw := r.tsw, vDivs := v, rstLedOn := r.rstLedOn, rstPwmEn := r.rstPwmEn,
          invertConst := r.invertConst, tsw_legal := h }
    | none => .error (.illegalDivisors r.vDivAbove r.vDivBelow)
  else .error (.timestampTooNarrow r.tsw)

end Sys2Proof
end

