-- ==== Sys2Proof/Syntax.lean ====
section
/-!
DEFINITION. The operations of the DTB block (spec/30_encoding.md R50, R58): one constructor for
each row of spec/opcode_table.json.
-/

namespace Sys2Proof

/-- The seven operations. An event carries its timestamp `ev_time`, a TSW-bit unsigned number of
microseconds held as a Nat because TSW is a parameter (R6; notes/assumptions/3.md); EV_NONE and
EV_PROG carry it and ignore it (R58, R60). A sample carries `smp_raw` (R53). -/
inductive Instr where
  /-- `EV_NONE t`: the reserved source code 00, a no-operation (R72). -/
  | evNone (t : Nat)
  /-- `EV_PROG t`: enter programming mode (R73). -/
  | evProg (t : Nat)
  /-- `EV_LED t`: toggle the indicator LED, debounced (R74). -/
  | evLed (t : Nat)
  /-- `EV_PWM t`: toggle the PWM-enable gate, debounced (R75). -/
  | evPwm (t : Nat)
  /-- `SMP_H raw`: map a horizontal-axis sample (R102). -/
  | smpH (raw : Sample)
  /-- `SMP_V raw`: map a vertical-axis sample (R103). -/
  | smpV (raw : Sample)
  /-- `RESET`: return the block to its initial state (R160). -/
  | reset
deriving DecidableEq, Repr

/-- The three formats an operation is carried in (R50). -/
inductive Format where
  | ev
  | smp
  | pin
deriving DecidableEq, Repr

/-- The format of an operation (R50). -/
def Instr.format : Instr → Format
  | .evNone _ => .ev
  | .evProg _ => .ev
  | .evLed _ => .ev
  | .evPwm _ => .ev
  | .smpH _ => .smp
  | .smpV _ => .smp
  | .reset => .pin

end Sys2Proof
end

