-- ==== Sys2Proof/WellFormed.lean ====
section
/-!
DEFINITION. Which operations a port of width TSW can carry (spec/30_encoding.md R51, R56): a
timestamp is a TSW-bit number; every 12-bit sample is legal (spec/20_memory.md R34).
-/

namespace Sys2Proof

/-- `t` is a TSW-bit number: a timestamp the port `ev_time` can carry (R31, R51). -/
def timeFits (tsw t : Nat) : Bool := decide (t < 2 ^ tsw)

/-- The operation can be presented on ports with timestamps `tsw` bits wide. -/
def Instr.wellFormed (tsw : Nat) : Instr → Bool
  | .evNone t => timeFits tsw t
  | .evProg t => timeFits tsw t
  | .evLed t => timeFits tsw t
  | .evPwm t => timeFits tsw t
  | .smpH _ => true
  | .smpV _ => true
  | .reset => true

end Sys2Proof
end

