-- ==== Sys2Proof/Decode.lean ====
section
/-!
DEFINITION. The decoder and the encoder of operation words (spec/30_encoding.md R50 to R58), and
the reader of words numbered as spec/opcode_table.json numbers them. The block has no stored
program and no byte order (spec/20_memory.md R33, R43): a word is the bits of one port group.
-/

namespace Sys2Proof

/-- The word of one operation, by format (R50): `ev_word` (R51), `smp_word` (R53), `rst` (R55). -/
inductive OpWord (tsw : Nat) where
  | ev (w : BitVec (2 + tsw))
  | smp (w : BitVec 13)
  | pin (w : BitVec 1)
deriving DecidableEq, Repr

/-- Why bits are no operation. Every `ev_word` and every `smp_word` is one (R57); only `rst = 0`,
and bits that are no port group's, are not. -/
inductive DecodeError where
  /-- `rst` is 0: the pin presents no operation (R55, R58). -/
  | resetNotAsserted
  /-- No format has words of this many bits (R50). -/
  | noSuchWidth (nbits : Nat)
  /-- A bit above the word's own width is set. -/
  | bitsAboveWord (nbits w : Nat)
deriving DecidableEq, Repr

/-! ## The codes -/

/-- The `smp_axis` code of an axis: 0 horizontal, 1 vertical (R54). -/
def Axis.bit : Axis → BitVec 1
  | .horizontal => 0#1
  | .vertical => 1#1

/-- The axis a `smp_axis` bit selects (R54). -/
def Axis.ofBit (b : BitVec 1) : Axis :=
  if b = 0#1 then .horizontal else .vertical

/-- The `ev_src` code of a source (R52). -/
def EvSource.bits : EvSource → BitVec 2
  | .none => 0b00#2
  | .prog => 0b01#2
  | .led => 0b10#2
  | .pwm => 0b11#2

/-- The source an `ev_src` code selects; all four codes select one (R52, R57). -/
def EvSource.ofBits (b : BitVec 2) : EvSource :=
  if b = 0b00#2 then .none
  else if b = 0b01#2 then .prog
  else if b = 0b10#2 then .led
  else .pwm

/-! ## Decoding -/

/-- The field `ev_src`, bits `[TSW+1 : TSW]` of `ev_word` (R51). -/
def evSrcField (tsw : Nat) (w : BitVec (2 + tsw)) : BitVec 2 := w.extractLsb' tsw 2

/-- The field `ev_time`, bits `[TSW-1 : 0]` of `ev_word`, as an unsigned number (R51, R56). -/
def evTimeField (tsw : Nat) (w : BitVec (2 + tsw)) : Nat := (w.extractLsb' 0 tsw).toNat

/-- The field `smp_axis`, bit 12 of `smp_word` (R53). -/
def smpAxisField (w : BitVec 13) : BitVec 1 := w.extractLsb' 12 1

/-- The field `smp_raw`, bits `[11 : 0]` of `smp_word` (R53). -/
def smpRawField (w : BitVec 13) : Sample := w.extractLsb' 0 12

/-- The event operation of an `ev_word`; all four source codes are operations (R52, R57). -/
def decodeEv (tsw : Nat) (w : BitVec (2 + tsw)) : Instr :=
  match EvSource.ofBits (evSrcField tsw w) with
  | .none => .evNone (evTimeField tsw w)
  | .prog => .evProg (evTimeField tsw w)
  | .led => .evLed (evTimeField tsw w)
  | .pwm => .evPwm (evTimeField tsw w)

/-- The sample operation of a `smp_word` (R54). -/
def decodeSmp (w : BitVec 13) : Instr :=
  match Axis.ofBit (smpAxisField w) with
  | .horizontal => .smpH (smpRawField w)
  | .vertical => .smpV (smpRawField w)

/-- The operation of a word, for timestamps `tsw` bits wide; total, and refusing by name only the
word `rst = 0` (R57, R58). -/
def decode (tsw : Nat) : OpWord tsw → Except DecodeError Instr
  | .ev w => .ok (decodeEv tsw w)
  | .smp w => .ok (decodeSmp w)
  | .pin w => if w = 1#1 then .ok .reset else .error .resetNotAsserted

/-! ## Encoding -/

/-- `{ev_src, ev_time}` (R51); a timestamp's bits above TSW do not reach the port. -/
def encodeEv (tsw : Nat) (src : EvSource) (t : Nat) : BitVec (2 + tsw) :=
  src.bits ++ BitVec.ofNat tsw t

/-- `{smp_axis, smp_raw}` (R53). -/
def encodeSmp (axis : Axis) (raw : Sample) : BitVec 13 := axis.bit ++ raw

/-- The word of an operation, for timestamps `tsw` bits wide (R50 to R55). -/
def encode (tsw : Nat) : Instr → OpWord tsw
  | .evNone t => .ev (encodeEv tsw .none t)
  | .evProg t => .ev (encodeEv tsw .prog t)
  | .evLed t => .ev (encodeEv tsw .led t)
  | .evPwm t => .ev (encodeEv tsw .pwm t)
  | .smpH raw => .smp (encodeSmp .horizontal raw)
  | .smpV raw => .smp (encodeSmp .vertical raw)
  | .reset => .pin 1#1

/-! ## The opcode table's words -/

/-- The word of `width` bits that the number `w` writes down, refused by name where it has a bit
above them. -/
def bitsFit (nbits width w : Nat) : Except DecodeError (BitVec width) :=
  if w < 2 ^ width then .ok (BitVec.ofNat width w) else .error (.bitsAboveWord nbits w)

/-- The port group that `nbits` bits belong to, at the table's TSW = 64: 66 bits are an `ev_word`,
13 a `smp_word`, 1 is `rst` (spec/opcode_table.json, "width"), each also rounded up to whole
bytes (notes/assumptions/6.md). -/
def tableFormat (nbits : Nat) : Option Format :=
  if nbits = 66 ∨ nbits = 72 then some .ev
  else if nbits = 13 ∨ nbits = 16 then some .smp
  else if nbits = 1 ∨ nbits = 8 then some .pin
  else none

/-- The operation word that `nbits` bits `w`, numbered as the table numbers them, are. -/
def tableWord (nbits w : Nat) : Except DecodeError (OpWord 64) :=
  match tableFormat nbits with
  | some .ev => (bitsFit nbits 66 w).map OpWord.ev
  | some .smp => (bitsFit nbits 13 w).map OpWord.smp
  | some .pin => (bitsFit nbits 1 w).map OpWord.pin
  | none => .error (.noSuchWidth nbits)

/-- The operation the decoder reads from `nbits` bits `w`, refused by name where they are none. -/
def decodeTable (nbits w : Nat) : Except DecodeError Instr :=
  match tableWord nbits w with
  | .ok word => decode 64 word
  | .error e => .error e

/-- The operation the decoder reads from an opcode-table word; none where it refuses. -/
def decodeTableWord (nbits w : Nat) : Option Instr :=
  match decodeTable nbits w with
  | .ok i => some i
  | .error _ => none

/-- The pattern by which spec/opcode_table.json selects a row: a word of the row's format is the
row's exactly when its bits under `mask` read `value`. -/
structure TableRow where
  format : Format
  mask : Nat
  value : Nat
deriving DecidableEq, Repr

/-- The row of an operation (spec/opcode_table.json, "mask" and "match", at TSW = 64; R58). -/
def tableRow : Instr → TableRow
  | .evNone _ => ⟨.ev, 0x30000000000000000, 0x00000000000000000⟩
  | .evProg _ => ⟨.ev, 0x30000000000000000, 0x10000000000000000⟩
  | .evLed _ => ⟨.ev, 0x30000000000000000, 0x20000000000000000⟩
  | .evPwm _ => ⟨.ev, 0x30000000000000000, 0x30000000000000000⟩
  | .smpH _ => ⟨.smp, 0x1000, 0x0000⟩
  | .smpV _ => ⟨.smp, 0x1000, 0x1000⟩
  | .reset => ⟨.pin, 0x1, 0x1⟩

/-- The format and the bits of a word, as one number. -/
def OpWord.toBits {tsw : Nat} : OpWord tsw → Format × Nat
  | .ev w => (.ev, w.toNat)
  | .smp w => (.smp, w.toNat)
  | .pin w => (.pin, w.toNat)

/-- The word is one of the row's words. -/
def TableRow.selects {tsw : Nat} (r : TableRow) (w : OpWord tsw) : Prop :=
  w.toBits.1 = r.format ∧ w.toBits.2 &&& r.mask = r.value

end Sys2Proof
end

