-- ==== Sys2Proof/Machine/State.lean ====
section
/-!
DEFINITION. The state of the machine: the six registers of spec/10_state.md R10, and the model's
own fields beside them (the instantiation parameters, the input cycles the environment has still
to present, the outputs of the cycle just executed); and the state after reset.
-/

namespace Sys2Proof.Machine

/-- No reason: no operation raises a fault. The type is empty because "the block raises no
synchronous exception" and every operation is total (spec/60_exceptions.md R135). -/
inductive Fault where
deriving DecidableEq, Repr

/-- Why a step is refused. -/
inductive Refusal where
  /-- Raised by an arm of `exec` for an instruction that has no meaning yet; safe. Every operation
  of this block has its meaning, so nothing raises it (R135: no refusal outcome). -/
  | notModelled (mnemonic : String)
deriving DecidableEq, Repr

/-- The six state registers and nothing else (R10). -/
structure Regs where
  /-- `last_ts`: the timestamp of the last accepted toggle of either source, a TSW-bit number of
  microseconds held as a Nat (R11; notes/assumptions/3.md). -/
  lastTs : Nat
  /-- `led_on`: the indicator LED's flag (R12). -/
  ledOn : Bool
  /-- `pwm_en`: the PWM-enable gate (R13). -/
  pwmEn : Bool
  /-- `mode`: RUN or PROG (R14). -/
  mode : Mode
  /-- `duty_h`: the last level written for the horizontal axis (R15). -/
  dutyH : Level
  /-- `duty_v`: the last level written for the vertical axis (R15). -/
  dutyV : Level
deriving DecidableEq, Repr

/-- The registers after a RESET operation (R20, spec/70_reset_and_hazards.md R160). -/
def Regs.afterReset (c : Config) : Regs where
  lastTs := 0
  ledOn := c.rstLedOn
  pwmEn := c.rstPwmEn
  mode := .run
  dutyH := 0#13
  dutyV := 0#13

/-- What the environment drives on the input ports in one cycle (spec/20_memory.md R31); `clk` is
the step itself. `evTime` stands for a port of TSW bits: only its low TSW bits reach the block
(notes/assumptions/3.md). -/
structure InputPorts where
  rst : Bool
  evValid : Bool
  evSrc : BitVec 2
  evTime : Nat
  smpValid : Bool
  smpAxis : BitVec 1
  smpRaw : Sample
deriving DecidableEq, Repr

/-- A result on the result port: the ports `res_axis`, `res_level`, `res_off` (R32, R104). -/
structure Result where
  axis : Axis
  level : Level
  off : Offset
deriving DecidableEq, Repr

/-- A write on the PWM write port: the ports `pwm_axis`, `pwm_level` (R32, R121). -/
structure PwmWrite where
  axis : Axis
  level : Level
deriving DecidableEq, Repr

/-- The "comb" outputs of one cycle (R32). `res = some r` is `res_valid` = 1 with the values of r;
`none` is `res_valid` = 0, when the other result ports are unspecified and so not exposed
(spec/93_implementation_defined.md U13; notes/assumptions/4.md). Likewise `pwm` and `pwm_wr`. -/
structure Outputs where
  res : Option Result
  pwm : Option PwmWrite
deriving DecidableEq, Repr

/-- Every strobe output is 0 (spec/00_scope.md R8, `nop`). -/
def Outputs.idle : Outputs where
  res := none
  pwm := none

/-- The state of the machine. `regs` is all of the block's state (R10). The other fields are the
model's: `cfg` the parameters the block was instantiated with, which nothing writes (R18;
notes/assumptions/2.md); `inputs` what the environment will present, the coming cycle first
(notes/assumptions/1.md); `out` the outputs of the cycle just executed, which nothing reads
(notes/assumptions/4.md). -/
structure State where
  cfg : Config
  regs : Regs
  inputs : List InputPorts
  out : Outputs
deriving DecidableEq, Repr

/-- The block right after RESET, instantiated with the parameters `c`, nothing presented yet
(R20, R162). -/
def State.resetWith (c : Config) : State where
  cfg := c
  regs := Regs.afterReset c
  inputs := []
  out := Outputs.idle

/-- The machine right after reset, at the default parameters of spec/00_scope.md R6. -/
def State.reset : State := State.resetWith Config.default

end Sys2Proof.Machine
end

