-- ==== Sys2Proof/Machine/Operands.lean ====
section
/-!
DEFINITION. Operand forms (spec/30_encoding.md R56): the timestamp of an event with the debounce
test on it (spec/40_debounce_toggle.md R71), and the sample of a mapper operation.
-/

namespace Sys2Proof.Machine

/-- The timestamp the block receives: the low TSW bits of what is driven on `ev_time` (R31). -/
def portTime (c : Config) (t : Nat) : Nat := t % 2 ^ c.tsw

/-- Elapsed time `(t - last_ts) mod 2^TSW`: subtraction of TSW-bit numbers with the borrow
discarded (R71, R8). -/
def elapsed (c : Config) (t last : Nat) : Nat :=
  (portTime c t + (2 ^ c.tsw - last % 2 ^ c.tsw)) % 2 ^ c.tsw

/-- The debounce test: accepted when strictly more than 200000 microseconds have elapsed since the
last accepted toggle; exactly 200000 is discarded (R71, R167). -/
def accepted (c : Config) (t last : Nat) : Bool := decide (debounceUs < elapsed c t last)

/-- The sample as an unsigned number, zero-extended (R56, R105). -/
def sampleValue (raw : Sample) : Nat := raw.toNat

end Sys2Proof.Machine
end

