-- ==== Sys2Proof/Machine/Flags.lean ====
section
/-!
DEFINITION. The block's two flags, `led_on` and `pwm_en` (spec/10_state.md R18): how an accepted
toggle writes them, and the gate that `pwm_en` is.
-/

namespace Sys2Proof.Machine

/-- An accepted "toggle-indicator-led": `last_ts <- t`, `led_on <- !led_on`, one indivisible
update (R74, R36). -/
def Regs.acceptLed (r : Regs) (t : Nat) : Regs :=
  { r with lastTs := t, ledOn := !r.ledOn }

/-- An accepted "toggle-pwm-gate": `last_ts <- t`, `pwm_en <- !pwm_en`, one indivisible update
(R75, R36). No duty level is written (R123, R124). -/
def Regs.acceptPwm (r : Regs) (t : Nat) : Regs :=
  { r with lastTs := t, pwmEn := !r.pwmEn }

/-- The gate decision of a sample operation: `pwm_en`, read once, whatever the level, the axis and
`led_on` (spec/42_pwm_gate.md R120, spec/20_memory.md R39). -/
def Regs.gateOpen (r : Regs) : Bool := r.pwmEn

end Sys2Proof.Machine
end

