-- ==== Sys2Proof/Machine/Mapper.lean ====
section
/-!
DEFINITION. The brightness mapper (spec/41_brightness_mapper.md R90 to R101, R105, R106): a pure
function of the axis, the sample and the instantiation parameters, computed over exact integers
with one rounding at the end, and narrowed to the ports' widths last.
-/

namespace Sys2Proof.Machine

/-- The five branches of the two axis contracts (R92, R96). -/
inductive Branch where
  | hAbove
  | hBelow
  | hDead
  | vAbove
  | vBelow
deriving DecidableEq, Repr

/-- What the mapper computes from one sample: the branch taken, the clamped intensity `n`, the
divisor `d` (none in the dead zone), the level and the offset (R90, R91). -/
structure Reading where
  branch : Branch
  n : Nat
  d : Option Nat
  level : Nat
  off : Nat
deriving DecidableEq, Repr

/-- The exact fraction `n / d`, 0 in the dead zone; it is on no port (R95, R100). -/
def Reading.frac (r : Reading) : ℚ :=
  match r.d with
  | some d => (r.n : ℚ) / (d : ℚ)
  | none => 0

/-- The level as the 13-bit ports and duty registers hold it (R101). -/
def Reading.levelBits (r : Reading) : Level := BitVec.ofNat 13 r.level

/-- The offset as the 7-bit port `res_off` carries it (R104). -/
def Reading.offBits (r : Reading) : Offset := BitVec.ofNat 7 r.off

/-- The clamp: an intensity is limited to its branch's divisor before anything is computed from it
(R99). -/
def clampTo (n d : Nat) : Nat := min n d

/-- `ceil(a / b) = floor((a + b - 1) / b)` (R8, R106). -/
def ceilDiv (a b : Nat) : Nat := (a + b - 1) / b

/-- `level = floor(4096 * n / d)`: multiply first, divide once (R101). -/
def levelOf (n d : Nat) : Nat := maxDuty * n / d

/-- An offset that grows with the fraction: `C + floor(S * n / d)` (R106). -/
def offsetUp (center scale n d : Nat) : Nat := center + scale * n / d

/-- An offset that falls as the fraction grows: `floor(C - S * n / d) = C - ceil(S * n / d)`
(R106). -/
def offsetDown (center scale n d : Nat) : Nat := center - ceilDiv (scale * n) d

/-- Horizontal branch selection; both comparisons are strict, so 1900 and 2000 are dead zone
(R92). -/
def hBranch (s : Nat) : Branch :=
  if hThHi < s then .hAbove
  else if s < hThLo then .hBelow
  else .hDead

/-- Vertical branch selection; the tie at 2100 goes below (R96). -/
def vBranch (s : Nat) : Branch :=
  if vTh < s then .vAbove else .vBelow

/-- Branch H_ABOVE (R93). -/
def readHAbove (s : Nat) : Reading :=
  let n := clampTo (s - hThHi) hDivHi
  { branch := .hAbove, n := n, d := some hDivHi,
    level := levelOf n hDivHi, off := offsetUp hCenter hScale n hDivHi }

/-- Branch H_BELOW (R94); the clamp of R99 is never active here. -/
def readHBelow (s : Nat) : Reading :=
  let n := clampTo (hThLo - s) hDivLo
  { branch := .hBelow, n := n, d := some hDivLo,
    level := levelOf n hDivLo, off := offsetDown hCenter hScale n hDivLo }

/-- Branch H_DEAD: fixed values, level 0 and the neutral offset 60; nothing is held from an earlier
sample (R95, R175). -/
def readHDead : Reading :=
  { branch := .hDead, n := 0, d := none, level := 0, off := hDzOffset }

/-- Branch V_ABOVE, with the divisor `V_DIV_ABOVE` (R97). -/
def readVAbove (c : Config) (s : Nat) : Reading :=
  let n := clampTo (s - vTh) c.vDivs.above
  { branch := .vAbove, n := n, d := some c.vDivs.above,
    level := levelOf n c.vDivs.above, off := offsetDown vCenter vScale n c.vDivs.above }

/-- Branch V_BELOW, with the divisor `V_DIV_BELOW` (R98). -/
def readVBelow (c : Config) (s : Nat) : Reading :=
  let n := clampTo (vTh - s) c.vDivs.below
  { branch := .vBelow, n := n, d := some c.vDivs.below,
    level := levelOf n c.vDivs.below, off := offsetUp vCenter vScale n c.vDivs.below }

/-- The reading of a branch for the sample value `s` (R91). -/
def readBranch (c : Config) (b : Branch) (s : Nat) : Reading :=
  match b with
  | .hAbove => readHAbove s
  | .hBelow => readHBelow s
  | .hDead => readHDead
  | .vAbove => readVAbove c s
  | .vBelow => readVBelow c s

/-- The branch an axis takes for the sample value `s` (R92, R96). -/
def branchOf (axis : Axis) (s : Nat) : Branch :=
  match axis with
  | .horizontal => hBranch s
  | .vertical => vBranch s

/-- The mapper: `H(s)` on the horizontal axis, `V(s)` on the vertical one (R90, R102, R103). -/
def mapSample (c : Config) (axis : Axis) (raw : Sample) : Reading :=
  readBranch c (branchOf axis (sampleValue raw)) (sampleValue raw)

end Sys2Proof.Machine
end

