-- ==== Sys2Proof/Machine/Ops.lean ====
section
/-!
DEFINITION. The named operations over the registers and the outputs that the meanings share. Each
answers the whole state after one operation presented alone in its cycle: the registers it leaves
and the "comb" outputs it drives (spec/20_memory.md R36, R32). The block has no memory (R30) and
takes no exception (spec/60_exceptions.md R135, R140), so there is no operation for either.
-/

namespace Sys2Proof.Machine

/-- `nop`: no state register changes and every strobe output is 0 (spec/00_scope.md R8). -/
def State.nop (s : State) : State := { s with out := Outputs.idle }

/-- The registers after an operation that drives no strobe. -/
def State.setRegs (s : State) (r : Regs) : State := { s with regs := r, out := Outputs.idle }

/-- Every operation but RESET first reads `mode`, and is a `nop` in PROG (R70, R143); `effect` is
what it does in RUN. -/
def State.inRun (s effect : State) : State :=
  match s.regs.mode with
  | .run => effect
  | .prog => s.nop

/-- Entering programming mode: `mode <- PROG` and no other register changes; the request line
`prog_req` follows `mode` (R73, R142). -/
def State.enterProg (s : State) : State := s.setRegs { s.regs with mode := .prog }

/-- A toggle event at time `t` in RUN: the registers become `r` when the event passes the debounce
test against the one shared `last_ts`, and nothing changes when it is discarded (R71, R76, R77). -/
def State.debounced (s : State) (t : Nat) (r : Regs) : State :=
  if accepted s.cfg t s.regs.lastTs then s.setRegs r else s.nop

/-- The holding register of an axis takes a level; the other axis keeps its own
(spec/42_pwm_gate.md R122). -/
def Regs.setDuty (r : Regs) (axis : Axis) (level : Level) : Regs :=
  match axis with
  | .horizontal => { r with dutyH := level }
  | .vertical => { r with dutyV := level }

/-- The holding register of an axis (R15). -/
def Regs.duty (r : Regs) (axis : Axis) : Level :=
  match axis with
  | .horizontal => r.dutyH
  | .vertical => r.dutyV

/-- The result port's values for a reading of an axis (R104). -/
def Reading.result (r : Reading) (axis : Axis) : Result :=
  { axis := axis, level := r.levelBits, off := r.offBits }

/-- A sample operation in RUN: the result port shows the reading whatever the gate (R104); with the
gate open the level is strobed on the write port and held in the axis's register, with the gate
closed nothing is written (R120, R121, R122). -/
def State.emit (s : State) (axis : Axis) (r : Reading) : State :=
  if s.regs.gateOpen then
    { s with
      regs := s.regs.setDuty axis r.levelBits
      out := { res := some (r.result axis), pwm := some { axis := axis, level := r.levelBits } } }
  else
    { s with out := { res := some (r.result axis), pwm := none } }

/-- A sample operation of an axis: the mapper, then the gate (R102, R103). -/
def State.sample (s : State) (axis : Axis) (raw : Sample) : State :=
  s.inRun (s.emit axis (mapSample s.cfg axis raw))

end Sys2Proof.Machine
end

