-- ==== Sys2Proof/Machine/Brightness.lean ====
section
/-!
DEFINITION. The sample operations SMP_H and SMP_V: the mapper of spec/41_brightness_mapper.md
R102, R103, whose last step is the gate of spec/42_pwm_gate.md R120 to R122.
-/

namespace Sys2Proof.Machine

/-- SMP_H: map a horizontal-axis sample (R102). -/
def execSmpH (raw : Sample) (s : State) : Host.Outcome State Fault Refusal :=
  .next (s.sample .horizontal raw)

/-- SMP_V: map a vertical-axis sample (R103). -/
def execSmpV (raw : Sample) (s : State) : Host.Outcome State Fault Refusal :=
  .next (s.sample .vertical raw)

end Sys2Proof.Machine
end

