-- ==== Sys2Proof/Machine/Controller.lean ====
section
/-!
DEFINITION. The Debounce/Toggle Controller's operations EV_NONE, EV_PROG, EV_LED, EV_PWM
(spec/40_debounce_toggle.md R70 to R77).
-/

namespace Sys2Proof.Machine

/-- EV_NONE, the reserved source code: a no-operation in RUN and in PROG alike, its timestamp
ignored and not copied to `last_ts` (R72, R57). -/
def execEvNone (_t : Nat) (s : State) : Host.Outcome State Fault Refusal :=
  .next s.nop

/-- EV_PROG: enter programming mode, undebounced, its timestamp ignored (R73, R142). -/
def execEvProg (_t : Nat) (s : State) : Host.Outcome State Fault Refusal :=
  .next (s.inRun s.enterProg)

/-- EV_LED: toggle `led_on`, debounced (R74). -/
def execEvLed (t : Nat) (s : State) : Host.Outcome State Fault Refusal :=
  .next (s.inRun (s.debounced t (s.regs.acceptLed (portTime s.cfg t))))

/-- EV_PWM: toggle `pwm_en`, debounced (R75). -/
def execEvPwm (t : Nat) (s : State) : Host.Outcome State Fault Refusal :=
  .next (s.inRun (s.debounced t (s.regs.acceptPwm (portTime s.cfg t))))

end Sys2Proof.Machine
end

