-- ==== Sys2Proof/Machine/Reset.lean ====
section
/-!
DEFINITION. The operation RESET (spec/70_reset_and_hazards.md R160).
-/

namespace Sys2Proof.Machine

/-- RESET: every register to its reset value, in RUN and in PROG alike, and no strobe: the duty
registers go to 0 without a write on the PWM port (R160, R20). -/
def execReset (s : State) : Host.Outcome State Fault Refusal :=
  .next (s.setRegs (Regs.afterReset s.cfg))

end Sys2Proof.Machine
end

