-- ==== Sys2Proof/Machine/Dispatch.lean ====
section
/-!
DEFINITION. The dispatch of an operation to its meaning (spec/30_encoding.md R58).
-/

namespace Sys2Proof.Machine

/-- One operation, presented alone in its cycle: the state it leaves (R36). -/
def exec (i : Instr) (s : State) : Host.Outcome State Fault Refusal :=
  match i with
  | .evNone t => Sys2Proof.Machine.execEvNone t s
  | .evProg t => Sys2Proof.Machine.execEvProg t s
  | .evLed t => Sys2Proof.Machine.execEvLed t s
  | .evPwm t => Sys2Proof.Machine.execEvPwm t s
  | .smpH raw => Sys2Proof.Machine.execSmpH raw s
  | .smpV raw => Sys2Proof.Machine.execSmpV raw s
  | .reset => Sys2Proof.Machine.execReset s

end Sys2Proof.Machine
end

