-- ==== Sys2Proof/Machine/Fetch.lean ====
section
/-!
DEFINITION. The input ports: which operations one cycle presents (spec/20_memory.md R35,
spec/30_encoding.md R58), and the port values that present an operation word (R51, R53, R55), an
operation of a trace (R60) and the pseudo-operations (R61).
-/

namespace Sys2Proof.Machine

/-- The two event ports side by side: `{ev_src, ev_time}` (R51). Of `evTime` only the TSW bits of
the port are there. -/
def InputPorts.evWord (p : InputPorts) (tsw : Nat) : BitVec (2 + tsw) :=
  p.evSrc ++ BitVec.ofNat tsw p.evTime

/-- The two sample ports side by side: `{smp_axis, smp_raw}` (R53). -/
def InputPorts.smpWord (p : InputPorts) : BitVec 13 := p.smpAxis ++ p.smpRaw

/-- What one cycle presents: nothing, one operation, or a sample and an event (R35, R58). -/
inductive CycleOps where
  | idle
  | one (i : Instr)
  | both (smp ev : Instr)
deriving DecidableEq, Repr

/-- The decoding of a cycle (R58): `rst` alone counts where it is 1 (R161); otherwise the valid
bits say which ports present an operation. -/
def InputPorts.ops (p : InputPorts) (tsw : Nat) : CycleOps :=
  if p.rst then .one .reset
  else match p.smpValid, p.evValid with
    | false, false => .idle
    | true, false => .one (decodeSmp p.smpWord)
    | false, true => .one (decodeEv tsw (p.evWord tsw))
    | true, true => .both (decodeSmp p.smpWord) (decodeEv tsw (p.evWord tsw))

/-- What the coming cycle presents: nothing once the environment has no more cycles to present
(R35, R176). -/
def State.nextOps (s : State) : CycleOps :=
  match s.inputs with
  | [] => .idle
  | p :: _ => p.ops s.cfg.tsw

/-- The coming cycle is taken from what the environment will present; nothing of it is kept
(R35: there is no queue). -/
def State.advance (s : State) : State := { s with inputs := s.inputs.tail }

/-- The state after a cycle with a sample and an event, from the states after the sample and after
the event: the outputs are the sample's, since an event drives no strobe (R38, R70). -/
def State.withOutputsOf (after smp : State) : State := { after with out := smp.out }

/-! ## Presenting operations -/

/-- The ports of a cycle that presents nothing; the values under a valid bit of 0 are ignored
(R56). -/
def idlePorts : InputPorts where
  rst := false
  evValid := false
  evSrc := 0#2
  evTime := 0
  smpValid := false
  smpAxis := 0#1
  smpRaw := 0#12

/-- The ports of a cycle that presents one operation word (R50). -/
def portsOfWord {tsw : Nat} : OpWord tsw → InputPorts
  | .ev w =>
    { idlePorts with
      evValid := true, evSrc := evSrcField tsw w, evTime := evTimeField tsw w }
  | .smp w =>
    { idlePorts with
      smpValid := true, smpAxis := smpAxisField w, smpRaw := smpRawField w }
  | .pin w => { idlePorts with rst := decide (w = 1#1) }

/-- One line of a trace: the cycle that presents an operation alone (R60). -/
def present (tsw : Nat) (i : Instr) : InputPorts := portsOfWord (encode tsw i)

/-- The pseudo-operation `BOTH smp ev`: one cycle with the sample port of the one and the event
port of the other (R61). -/
def presentBoth (smp ev : InputPorts) : InputPorts :=
  { smp with evValid := ev.evValid, evSrc := ev.evSrc, evTime := ev.evTime }

/-- The pseudo-operation `ITER h v`: `SMP_H h`, then `SMP_V v`, in two cycles (R61). -/
def presentIter (tsw : Nat) (h v : Sample) : List InputPorts :=
  [present tsw (.smpH h), present tsw (.smpV v)]

/-- The environment will present the cycle `p` next, before what it was going to present. -/
def State.presentNext (s : State) (p : InputPorts) : State := { s with inputs := p :: s.inputs }

/-- The cycle that presents `nbits` bits `w`, numbered as spec/opcode_table.json numbers them, is
put in front; bits that are no operation word present nothing new. -/
def State.presentTableWord (s : State) (nbits w : Nat) : State :=
  match tableWord nbits w with
  | .ok word => s.presentNext (portsOfWord word)
  | .error _ => s

end Sys2Proof.Machine
end

