-- ==== Sys2Proof/Machine/Step.lean ====
section
/-!
DEFINITION. One step of the machine: one rising edge of `clk` (spec/20_memory.md R31, R35).
-/

namespace Sys2Proof.Machine

/-- One cycle: the coming cycle's operations run on the registers as they stand. An idle cycle
changes no register. In a cycle with a sample and an event the step runs the sample first and then
the event, to which the cycle is equivalent, and shows the sample's outputs (R38, R58). The step
has the three outcomes of the host's interface; only `next` ever comes (R135). -/
def step (s : State) : Host.Outcome State Fault Refusal :=
  match s.nextOps with
  | .idle => .next s.advance.nop
  | .one i => exec i s.advance
  | .both smp ev =>
    match exec smp s.advance with
    | .next s₁ =>
      match exec ev s₁ with
      | .next s₂ => .next (s₂.withOutputsOf s₁)
      | .fault r => .fault r
      | .refused r => .refused r
    | .fault r => .fault r
    | .refused r => .refused r

/-- `s` with an opcode-table word as the operation the environment presents next, so that the very
next step runs it (notes/assumptions/7.md). -/
def State.withFetchWord (s : State) (nbits w : Nat) : State := s.presentTableWord nbits w

end Sys2Proof.Machine
end

