-- ==== Sys2Proof/Machine/Outputs.lean ====
section
/-!
DEFINITION. The output ports of spec/20_memory.md R32: those driven from the registers in every
cycle (spec/42_pwm_gate.md R125) and the "comb" ports of one cycle.
-/

namespace Sys2Proof.Machine

/-- `duty_h_out` = `duty_h` (R125). -/
def State.dutyHOut (s : State) : Level := s.regs.dutyH

/-- `duty_v_out` = `duty_v` (R125). -/
def State.dutyVOut (s : State) : Level := s.regs.dutyV

/-- `led_out` = `led_on` (R125). -/
def State.ledOut (s : State) : Bool := s.regs.ledOn

/-- `prog_req` = (`mode` == PROG) (R125). -/
def State.progReq (s : State) : Bool := decide (s.regs.mode = .prog)

/-- `disp_invert` = `INVERT_CONST` (R125). -/
def State.dispInvert (s : State) : Bool := s.cfg.invertConst

/-- All output ports in one cycle (R32). A port whose value the spec leaves unspecified in that
cycle has no value here (spec/93_implementation_defined.md U13). -/
structure OutputPorts where
  resValid : Bool
  resAxis : Option (BitVec 1)
  resLevel : Option Level
  resOff : Option Offset
  pwmWr : Bool
  pwmAxis : Option (BitVec 1)
  pwmLevel : Option Level
  dutyHOut : Level
  dutyVOut : Level
  ledOut : Bool
  progReq : Bool
  dispInvert : Bool
deriving DecidableEq, Repr

/-- The output ports during the cycle that takes `before` to `after`: the register-driven ports
show the registers the cycle began with, since a write of cycle k is visible from cycle k+1
(R125); the "comb" ports show what the cycle's operation drives (R32). -/
def cyclePorts (before after : State) : OutputPorts where
  resValid := after.out.res.isSome
  resAxis := after.out.res.map fun r => r.axis.bit
  resLevel := after.out.res.map fun r => r.level
  resOff := after.out.res.map fun r => r.off
  pwmWr := after.out.pwm.isSome
  pwmAxis := after.out.pwm.map fun w => w.axis.bit
  pwmLevel := after.out.pwm.map fun w => w.level
  dutyHOut := before.dutyHOut
  dutyVOut := before.dutyVOut
  ledOut := before.ledOut
  progReq := before.progReq
  dispInvert := before.dispInvert

end Sys2Proof.Machine
end

