-- ==== Sys2Proof/Safety.lean ====
section
/-!
DEFINITION. What claims about the machine are said in: the states the block can be in
(spec/10_state.md R21), and runs as the list of cycles they execute (spec/20_memory.md R37).
-/

namespace Sys2Proof.Machine

/-- The register values that exist: `last_ts` is a TSW-bit number (R10) and neither duty register
exceeds the full-scale level 4096 (R21). -/
abbrev State.Wf (s : State) : Prop :=
  s.regs.lastTs < 2 ^ s.cfg.tsw ∧ s.regs.dutyH.toNat ≤ maxDuty ∧ s.regs.dutyV.toNat ≤ maxDuty

/-! ## What one operation does -/

/-- The elapsed time of R71 as an integer: `(t - last_ts) mod 2^TSW`. -/
def elapsedInt (c : Config) (t last : Nat) : ℤ := ((t : ℤ) - (last : ℤ)) % ((2 ^ c.tsw : ℕ) : ℤ)

/-- The operation is a toggle accepted at time `t`: `last_ts` becomes `t` and a flag is inverted
(R74, R75). -/
def AcceptedAt (i : Instr) (s : State) (t : Nat) : Prop :=
  ∃ u, exec i s = .next u ∧ u.regs.lastTs = t ∧
    (u.regs.ledOn ≠ s.regs.ledOn ∨ u.regs.pwmEn ≠ s.regs.pwmEn)

/-- The operation is discarded: no register changes and no strobe is driven (R77, R8). -/
def Discarded (i : Instr) (s : State) : Prop :=
  exec i s = .next { s with out := Outputs.idle }

/-- The horizontal axis contract: `level` and `off` are those of the sample value `s` (R92 to
R95). -/
def hContract (s level off : Nat) : Prop :=
  (2000 < s ∧ level = 4096 * min (s - 2000) 2088 / 2088 ∧
    off = 60 + 60 * min (s - 2000) 2088 / 2088) ∨
  (s < 1900 ∧ level = 4096 * (1900 - s) / 1900 ∧ off = 60 - (60 * (1900 - s) + 1899) / 1900) ∨
  (1900 ≤ s ∧ s ≤ 2000 ∧ level = 0 ∧ off = 60)

/-- The vertical axis contract with the divisors `above` and `below` (R96 to R98). -/
def vContract (above below s level off : Nat) : Prop :=
  (2100 < s ∧ level = 4096 * min (s - 2100) above / above ∧
    off = 30 - (30 * min (s - 2100) above + above - 1) / above) ∨
  (s ≤ 2100 ∧ level = 4096 * min (2100 - s) below / below ∧
    off = 30 + 30 * min (2100 - s) below / below)

/-! ## What one cycle presents -/

/-- The event operation the code on `ev_src` selects (R52, R58). -/
def InputPorts.eventOp (p : InputPorts) (tsw : Nat) : Instr :=
  if p.evSrc = 0b00#2 then .evNone (p.evTime % 2 ^ tsw)
  else if p.evSrc = 0b01#2 then .evProg (p.evTime % 2 ^ tsw)
  else if p.evSrc = 0b10#2 then .evLed (p.evTime % 2 ^ tsw)
  else .evPwm (p.evTime % 2 ^ tsw)

/-- The sample operation the bit on `smp_axis` selects (R54, R58). -/
def InputPorts.sampleOp (p : InputPorts) : Instr :=
  if p.smpAxis = 0#1 then .smpH p.smpRaw else .smpV p.smpRaw

/-- The cycle presents the operation word `w` and nothing beside it (R35, R50); under `rst` the
other ports are ignored. -/
def InputPorts.presentsWord (p : InputPorts) {tsw : Nat} : OpWord tsw → Prop
  | .ev w => p.rst = false ∧ p.smpValid = false ∧ p.evValid = true ∧
      w.toNat = p.evSrc.toNat * 2 ^ tsw + p.evTime % 2 ^ tsw
  | .smp w => p.rst = false ∧ p.smpValid = true ∧ p.evValid = false ∧
      w.toNat = p.smpAxis.toNat * 4096 + p.smpRaw.toNat
  | .pin w => p.rst = true ∧ w = 1#1

/-! ## Runs -/

/-- The cycles of the first `k` steps from `s`, each as the states before and after it. -/
def cycles : Nat → State → List (State × State)
  | 0, _ => []
  | k + 1, s =>
    match step s with
    | .next t => (s, t) :: cycles k t
    | .fault _ => []
    | .refused _ => []

/-- The state from which a run of the cycles `ps` begins with the block as it stands in `s`. -/
def State.withInputs (s : State) (ps : List InputPorts) : State := { s with inputs := ps }

/-- The run of the cycles `ps` from `s`: every cycle with the states before and after it. -/
def runOf (s : State) (ps : List InputPorts) : List (State × State) :=
  cycles ps.length (s.withInputs ps)

/-- The state after the run of the cycles `ps` from `s`. -/
def State.afterRun (s : State) (ps : List InputPorts) : State :=
  match (runOf s ps).getLast? with
  | some c => c.2
  | none => s.withInputs []

/-- The cycle presents a toggle event: EV_LED or EV_PWM (R52). -/
def InputPorts.togglePresented (p : InputPorts) : Bool :=
  !p.rst && p.evValid && decide (EvSource.ofBits p.evSrc = .led ∨ EvSource.ofBits p.evSrc = .pwm)

/-- The timestamps of the toggle events the cycles present, in order. -/
def toggleTimes (ps : List InputPorts) : List Nat :=
  (ps.filter InputPorts.togglePresented).map InputPorts.evTime

/-- A toggle was accepted in the cycle: one of the two flags was inverted (R74, R75). -/
def toggledIn (c : State × State) : Bool :=
  decide (c.1.regs.ledOn ≠ c.2.regs.ledOn ∨ c.1.regs.pwmEn ≠ c.2.regs.pwmEn)

/-- The timestamp driven in a cycle of a run. -/
def drivenTime (c : State × State) : Nat :=
  match c.1.inputs with
  | [] => 0
  | p :: _ => p.evTime

/-- The timestamps of the accepted toggles of a run without RESET, in order (R78). -/
def acceptedTimes (cs : List (State × State)) : List Nat :=
  (cs.filter toggledIn).map drivenTime

/-- The level a cycle writes on the PWM port for an axis, if it writes one (R121). -/
def writtenLevel (axis : Axis) (c : State × State) : Option Level :=
  match c.2.out.pwm with
  | some w => if w.axis = axis then some w.level else none
  | none => none

/-- The cycle executes a sample operation in RUN with the gate open: it presents a sample, not
RESET, and begins in RUN with `pwm_en` = 1 (R35, R120). -/
def openSample (c : State × State) : Bool :=
  match c.1.inputs with
  | [] => false
  | p :: _ => !p.rst && p.smpValid && decide (c.1.regs.mode = .run) && c.1.regs.pwmEn

end Sys2Proof.Machine
end

