-- ==== Sys2Proof/Certificates/Slice0/Obligations.lean ====
section
/-!
DEFINITION. The statements for the provers: what the numbered rules of spec/ say the operations,
the cycle and the runs of the DTB block do. Each docstring names the rule or section it
formalises, or the assumption-log entry where it states a choice of the model.
-/

open Sys2Proof Sys2Proof.Machine

/-! ## Words -/

/-- Decoding the word of an operation whose timestamp the port can carry gives the operation back,
for every timestamp width (30_encoding.md sections 1 and 4). -/
def Obligations.DecodeInvertsEncode : Prop :=
  ∀ (tsw : Nat) (i : Instr), i.wellFormed tsw = true → decode tsw (encode tsw i) = .ok i

/-- Every word that decodes is the word of exactly the operation it decodes to, and that operation
is well formed (30_encoding.md sections 1 and 4). -/
def Obligations.EncodeInvertsDecode : Prop :=
  ∀ (tsw : Nat) (w : OpWord tsw) (i : Instr), decode tsw w = .ok i →
    i.wellFormed tsw = true ∧ encode tsw i = w

/-- R51, R52: the event word is the source code above the TSW-bit timestamp, and the four codes are
EV_NONE, EV_PROG, EV_LED, EV_PWM; at TSW = 64 the code stands at bits 65:64. -/
def Obligations.EventWordLayout : Prop :=
  (∀ tsw t : Nat, t < 2 ^ tsw →
    decode tsw (.ev (BitVec.ofNat (2 + tsw) (0 * 2 ^ tsw + t))) = .ok (.evNone t) ∧
    decode tsw (.ev (BitVec.ofNat (2 + tsw) (1 * 2 ^ tsw + t))) = .ok (.evProg t) ∧
    decode tsw (.ev (BitVec.ofNat (2 + tsw) (2 * 2 ^ tsw + t))) = .ok (.evLed t) ∧
    decode tsw (.ev (BitVec.ofNat (2 + tsw) (3 * 2 ^ tsw + t))) = .ok (.evPwm t)) ∧
  ∀ w : BitVec 66, evSrcField 64 w = w.extractLsb 65 64 ∧
    evTimeField 64 w = (w.extractLsb 63 0).toNat

/-- R53, R54: the sample word is the axis bit above the 12-bit sample; 0 is SMP_H, 1 is SMP_V. -/
def Obligations.SampleWordLayout : Prop :=
  ∀ tsw s : Nat, s < 4096 →
    decode tsw (.smp (BitVec.ofNat 13 (0 * 4096 + s))) = .ok (.smpH (BitVec.ofNat 12 s)) ∧
    decode tsw (.smp (BitVec.ofNat 13 (1 * 4096 + s))) = .ok (.smpV (BitVec.ofNat 12 s))

/-- R57: every event word and every sample word is an operation; the one reserved code, 00, is
EV_NONE, which changes no register, drives no strobe and ignores its timestamp; and no pattern on
the ports stops the machine. -/
def Obligations.NoIllegalEncoding : Prop :=
  (∀ (tsw : Nat) (w : BitVec (2 + tsw)), ∃ i, decode tsw (.ev w) = .ok i ∧ i.format = .ev) ∧
  (∀ (tsw : Nat) (w : BitVec 13), ∃ raw,
    decode tsw (.smp w) = .ok (.smpH raw) ∨ decode tsw (.smp w) = .ok (.smpV raw)) ∧
  (∀ (tsw : Nat) (w : BitVec (2 + tsw)), w.toNat / 2 ^ tsw = 0 →
    ∃ t, decode tsw (.ev w) = .ok (.evNone t)) ∧
  (∀ (t : Nat) (s : State), exec (.evNone t) s = .next { s with out := Outputs.idle }) ∧
  (∀ (s : State) (p : InputPorts), ∃ u, step (s.presentNext p) = .next u)

/-- A few of the words the spec writes down (30_encoding.md section 5, 95_test_vectors.md sections
2 to 4), and the pin word 1 (30_encoding.md section 1), decode to the operations they stand for.
That `decodeTableWord` tells the three formats apart by the number of bits is the model's, DEDUCED
(log 6); the last clause, on an event word given as one, does not rest on it. -/
def Obligations.SpecWordsDecode : Prop :=
  decodeTableWord 66 0x2000000000003D090 = some (.evLed 250000) ∧
  decodeTableWord 66 0x3000000000006DDD1 = some (.evPwm 450001) ∧
  decodeTableWord 66 0x1000000000007A121 = some (.evProg 500001) ∧
  decodeTableWord 66 0x000000000000F423F = some (.evNone 999999) ∧
  decodeTableWord 13 0x0BE4 = some (.smpH 3044#12) ∧
  decodeTableWord 13 0x1834 = some (.smpV 2100#12) ∧
  decodeTableWord 1 1 = some .reset ∧
  decode 32 (.ev 0x200030CDD#34) = .ok (.evLed 199901)

/-- An instantiation is made from exactly the parameter values that are legal, with those values
(00_scope.md section 4; 93_implementation_defined.md U16, U17). -/
def Obligations.OnlyLegalConfigurationsBuild : Prop :=
  ∀ r : RawConfig,
    ((∃ c, r.build = .ok c) ↔
      18 ≤ r.tsw ∧ ((r.vDivAbove = 1988 ∧ r.vDivBelow = 2100) ∨
        (r.vDivAbove = 2100 ∧ r.vDivBelow = 1988))) ∧
    ∀ c, r.build = .ok c →
      c.tsw = r.tsw ∧ c.vDivs.above = r.vDivAbove ∧ c.vDivs.below = r.vDivBelow ∧
      c.rstLedOn = r.rstLedOn ∧ c.rstPwmEn = r.rstPwmEn ∧ c.invertConst = r.invertConst

/-! ## The cycle -/

/-- When the coming cycle presents a word that decodes to an operation, alone, the step is that
operation's meaning on the state from which the cycle has been taken (20_memory.md section 4). -/
def Obligations.StepRunsTheDecodedOperation : Prop :=
  ∀ (s : State) (p : InputPorts) (rest : List InputPorts) (w : OpWord s.cfg.tsw) (i : Instr),
    s.inputs = p :: rest → p.presentsWord w → decode s.cfg.tsw w = .ok i →
    step s = exec i { s with inputs := rest }

/-- Presenting an operation as a line of a trace and stepping is running it (30_encoding.md
section 5). -/
def Obligations.TraceLineRunsItsOperation : Prop :=
  ∀ (s : State) (i : Instr), i.wellFormed s.cfg.tsw = true →
    step (s.presentNext (present s.cfg.tsw i)) = exec i s

/-- R58: the complete map of a cycle. `rst` alone; else the sample selected by `smp_axis` and the
event selected by `ev_src`, both against the pre-cycle registers; else idle. -/
def Obligations.CompleteCycleMap : Prop :=
  ∀ (s : State) (p : InputPorts) (rest : List InputPorts), s.inputs = p :: rest →
    (p.rst = true → step s = exec .reset { s with inputs := rest }) ∧
    (p.rst = false → p.smpValid = false → p.evValid = false →
      step s = .next { s with inputs := rest, out := Outputs.idle }) ∧
    (p.rst = false → p.smpValid = true → p.evValid = false →
      step s = exec p.sampleOp { s with inputs := rest }) ∧
    (p.rst = false → p.smpValid = false → p.evValid = true →
      step s = exec (p.eventOp s.cfg.tsw) { s with inputs := rest }) ∧
    (p.rst = false → p.smpValid = true → p.evValid = true →
      ∃ a b, exec p.sampleOp { s with inputs := rest } = .next a ∧
        exec (p.eventOp s.cfg.tsw) { s with inputs := rest } = .next b ∧
        step s = .next { s with
          inputs := rest
          regs := { b.regs with dutyH := a.regs.dutyH, dutyV := a.regs.dutyV }
          out := a.out })

/-- A step with nothing left to present is an idle cycle: no register changes and no strobe is
driven (20_memory.md section 4; that the list may be empty is the model's, log 1). -/
def Obligations.NothingPresentedChangesNothing : Prop :=
  ∀ s : State, s.inputs = [] → step s = .next { s with out := Outputs.idle }

/-- R38, R173: a sample and an event in one cycle both read the state from before it: the cycle
leaves what the sample alone and the event alone would each leave in the registers they write, is
equal in its registers to the sample's cycle followed by the event's, and the sample is written or
not by the gate as it stood before the event. -/
def Obligations.SameCycleSampleAndEvent : Prop :=
  ∀ (s : State) (p : InputPorts) (rest : List InputPorts), s.inputs = p :: rest →
    p.rst = false → p.smpValid = true → p.evValid = true →
    ∃ t a b u v,
      step s = .next t ∧
      step { s with inputs := { p with evValid := false } :: rest } = .next a ∧
      step { s with inputs := { p with smpValid := false } :: rest } = .next b ∧
      step { s with
        inputs := { p with evValid := false } :: { p with smpValid := false } :: rest } = .next u ∧
      step u = .next v ∧
      t.regs = { b.regs with dutyH := a.regs.dutyH, dutyV := a.regs.dutyV } ∧
      t.regs = v.regs ∧ t.out = a.out ∧
      (s.regs.mode = .run →
        t.out.res.isSome = true ∧ t.out.pwm.isSome = s.regs.pwmEn)

/-- In a cycle with `rst` = 1 the event and the sample are lost: the registers take their reset
values whatever is presented (70_reset_and_hazards.md section 1). -/
def Obligations.ResetOverridesThePorts : Prop :=
  ∀ (s : State) (p : InputPorts) (rest : List InputPorts), s.inputs = p :: rest → p.rst = true →
    step s = .next { s with
      inputs := rest
      regs :=
        { lastTs := 0, ledOn := s.cfg.rstLedOn, pwmEn := s.cfg.rstPwmEn, mode := .run,
          dutyH := 0#13, dutyV := 0#13 }
      out := Outputs.idle }

/-- A step sees the coming cycle only: two states with the same parameters, registers and coming
cycle leave the same registers and drive the same outputs, whatever else is to be presented and
whatever the outputs showed (10_state.md section 7, 20_memory.md sections 4 and 5). -/
def Obligations.StepHasNoHiddenState : Prop :=
  ∀ s₁ s₂ : State, s₁.cfg = s₂.cfg → s₁.regs = s₂.regs → s₁.inputs.head? = s₂.inputs.head? →
    ∃ u₁ u₂, step s₁ = .next u₁ ∧ step s₂ = .next u₂ ∧ u₁.regs = u₂.regs ∧ u₁.out = u₂.out ∧
      u₁.cfg = s₁.cfg ∧ u₁.inputs = s₁.inputs.tail

/-- R135: every operation is total, for every state and every input: it never faults and is never
refused; so is every step. -/
def Obligations.EveryOperationIsTotal : Prop :=
  (∀ (i : Instr) (s : State), ∃ u, exec i s = .next u) ∧ ∀ s : State, ∃ u, step s = .next u

/-! ## The event operations -/

/-- R72: EV_NONE is a `nop` in RUN and in PROG, whatever its timestamp. -/
def Obligations.EvNoneIsNop : Prop :=
  (∀ (tsw : Nat) (w : BitVec (2 + tsw)), w.toNat / 2 ^ tsw = 0 →
    decode tsw (.ev w) = .ok (.evNone (w.toNat % 2 ^ tsw))) ∧
  ∀ (t : Nat) (s : State), exec (.evNone t) s = .next { s with out := Outputs.idle }

/-- R73: EV_PROG in RUN sets `mode` to PROG and changes no other register, however recently a
toggle was accepted and whatever its timestamp; `prog_req` reads 1 in every cycle from the next one
on until RESET; in PROG it is a `nop`; a sample of the same cycle still executes. -/
def Obligations.EvProgEntersProgrammingMode : Prop :=
  (∀ (tsw : Nat) (w : BitVec (2 + tsw)), w.toNat / 2 ^ tsw = 1 →
    decode tsw (.ev w) = .ok (.evProg (w.toNat % 2 ^ tsw))) ∧
  (∀ (t : Nat) (s : State), s.regs.mode = .run →
    ∃ u, exec (.evProg t) s = .next u ∧
      u = { s with regs := { s.regs with mode := .prog }, out := Outputs.idle } ∧
      ∀ ps : List InputPorts, (∀ p ∈ ps, p.rst = false) →
        ∀ c ∈ runOf u ps, (cyclePorts c.1 c.2).progReq = true) ∧
  (∀ (t : Nat) (s : State), s.regs.mode = .prog →
    exec (.evProg t) s = .next { s with out := Outputs.idle }) ∧
  (∀ (s : State) (p : InputPorts) (rest : List InputPorts), s.inputs = p :: rest →
    p.rst = false → p.smpValid = true → p.evValid = true → p.evSrc = 0b01#2 →
    s.regs.mode = .run →
    ∃ u, step s = .next u ∧ u.regs.mode = .prog ∧ u.out.res.isSome = true ∧
      u.out.pwm.isSome = s.regs.pwmEn)

/-- R74: EV_LED in RUN, with more than 200000 elapsed since `last_ts`, writes its timestamp to
`last_ts` and inverts `led_on`, and `led_out` follows; otherwise nothing changes. -/
def Obligations.EvLedTogglesDebounced : Prop :=
  (∀ (tsw : Nat) (w : BitVec (2 + tsw)), w.toNat / 2 ^ tsw = 2 →
    decode tsw (.ev w) = .ok (.evLed (w.toNat % 2 ^ tsw))) ∧
  ∀ (t : Nat) (s : State), t < 2 ^ s.cfg.tsw → s.regs.lastTs < 2 ^ s.cfg.tsw →
    (s.regs.mode = .run → 200000 < elapsedInt s.cfg t s.regs.lastTs →
      ∃ u, exec (.evLed t) s = .next u ∧ u.ledOut = !s.ledOut ∧
        u = { s with
          regs := { s.regs with lastTs := t, ledOn := !s.regs.ledOn }, out := Outputs.idle }) ∧
    (s.regs.mode = .run → elapsedInt s.cfg t s.regs.lastTs ≤ 200000 →
      exec (.evLed t) s = .next { s with out := Outputs.idle }) ∧
    (s.regs.mode = .prog → exec (.evLed t) s = .next { s with out := Outputs.idle })

/-- R75: EV_PWM in RUN, with more than 200000 elapsed since `last_ts`, writes its timestamp to
`last_ts` and inverts `pwm_en`, and nothing else: no duty level, no strobe; otherwise nothing
changes. -/
def Obligations.EvPwmTogglesDebounced : Prop :=
  (∀ (tsw : Nat) (w : BitVec (2 + tsw)), w.toNat / 2 ^ tsw = 3 →
    decode tsw (.ev w) = .ok (.evPwm (w.toNat % 2 ^ tsw))) ∧
  ∀ (t : Nat) (s : State), t < 2 ^ s.cfg.tsw → s.regs.lastTs < 2 ^ s.cfg.tsw →
    (s.regs.mode = .run → 200000 < elapsedInt s.cfg t s.regs.lastTs →
      exec (.evPwm t) s = .next { s with
        regs := { s.regs with lastTs := t, pwmEn := !s.regs.pwmEn }, out := Outputs.idle }) ∧
    (s.regs.mode = .run → elapsedInt s.cfg t s.regs.lastTs ≤ 200000 →
      exec (.evPwm t) s = .next { s with out := Outputs.idle }) ∧
    (s.regs.mode = .prog → exec (.evPwm t) s = .next { s with out := Outputs.idle })

/-- Of a timestamp wider than the port only the low TSW bits reach the block: the model's choice
for values no port of TSW bits carries (log 3; 20_memory.md section 2). -/
def Obligations.WideTimestampsAreTruncated : Prop :=
  ∀ (t : Nat) (s : State),
    exec (.evNone t) s = exec (.evNone (t % 2 ^ s.cfg.tsw)) s ∧
    exec (.evProg t) s = exec (.evProg (t % 2 ^ s.cfg.tsw)) s ∧
    exec (.evLed t) s = exec (.evLed (t % 2 ^ s.cfg.tsw)) s ∧
    exec (.evPwm t) s = exec (.evPwm (t % 2 ^ s.cfg.tsw)) s

/-- The registers an operation may write are those the access matrix gives it; the others, the
parameters and the cycles still to be presented are unchanged (10_state.md section 4). -/
def Obligations.OperationsWriteOnlyTheirRegisters : Prop :=
  ∀ (s u : State),
    (∀ i, exec i s = .next u → u.cfg = s.cfg ∧ u.inputs = s.inputs) ∧
    (∀ t, exec (.evNone t) s = .next u → u.regs = s.regs ∧ u.out = Outputs.idle) ∧
    (∀ t, exec (.evProg t) s = .next u →
      u.regs.lastTs = s.regs.lastTs ∧ u.regs.ledOn = s.regs.ledOn ∧
      u.regs.pwmEn = s.regs.pwmEn ∧ u.regs.dutyH = s.regs.dutyH ∧
      u.regs.dutyV = s.regs.dutyV ∧ u.out = Outputs.idle) ∧
    (∀ t, exec (.evLed t) s = .next u →
      u.regs.pwmEn = s.regs.pwmEn ∧ u.regs.mode = s.regs.mode ∧
      u.regs.dutyH = s.regs.dutyH ∧ u.regs.dutyV = s.regs.dutyV ∧ u.out = Outputs.idle) ∧
    (∀ t, exec (.evPwm t) s = .next u →
      u.regs.ledOn = s.regs.ledOn ∧ u.regs.mode = s.regs.mode ∧
      u.regs.dutyH = s.regs.dutyH ∧ u.regs.dutyV = s.regs.dutyV ∧ u.out = Outputs.idle) ∧
    (∀ raw, exec (.smpH raw) s = .next u →
      u.regs.lastTs = s.regs.lastTs ∧ u.regs.ledOn = s.regs.ledOn ∧
      u.regs.pwmEn = s.regs.pwmEn ∧ u.regs.mode = s.regs.mode ∧ u.regs.dutyV = s.regs.dutyV) ∧
    (∀ raw, exec (.smpV raw) s = .next u →
      u.regs.lastTs = s.regs.lastTs ∧ u.regs.ledOn = s.regs.ledOn ∧
      u.regs.pwmEn = s.regs.pwmEn ∧ u.regs.mode = s.regs.mode ∧ u.regs.dutyH = s.regs.dutyH)

/-- What an operation writes and drives depends on the registers the access matrix lets it read and
on no other (10_state.md section 4). -/
def Obligations.OperationsReadOnlyTheirRegisters : Prop :=
  ∀ (s₁ s₂ u₁ u₂ : State), s₁.cfg = s₂.cfg →
    (∀ t, exec (.evNone t) s₁ = .next u₁ → exec (.evNone t) s₂ = .next u₂ → u₁.out = u₂.out) ∧
    (∀ t, s₁.regs.mode = s₂.regs.mode →
      exec (.evProg t) s₁ = .next u₁ → exec (.evProg t) s₂ = .next u₂ →
      u₁.regs.mode = u₂.regs.mode ∧ u₁.out = u₂.out) ∧
    (∀ t, s₁.regs.mode = s₂.regs.mode → s₁.regs.lastTs = s₂.regs.lastTs →
      s₁.regs.ledOn = s₂.regs.ledOn →
      exec (.evLed t) s₁ = .next u₁ → exec (.evLed t) s₂ = .next u₂ →
      u₁.regs.lastTs = u₂.regs.lastTs ∧ u₁.regs.ledOn = u₂.regs.ledOn ∧ u₁.out = u₂.out) ∧
    (∀ t, s₁.regs.mode = s₂.regs.mode → s₁.regs.lastTs = s₂.regs.lastTs →
      s₁.regs.pwmEn = s₂.regs.pwmEn →
      exec (.evPwm t) s₁ = .next u₁ → exec (.evPwm t) s₂ = .next u₂ →
      u₁.regs.lastTs = u₂.regs.lastTs ∧ u₁.regs.pwmEn = u₂.regs.pwmEn ∧ u₁.out = u₂.out) ∧
    (∀ raw, s₁.regs.mode = s₂.regs.mode → s₁.regs.pwmEn = s₂.regs.pwmEn →
      exec (.smpH raw) s₁ = .next u₁ → exec (.smpH raw) s₂ = .next u₂ →
      u₁.out = u₂.out ∧ (u₁.regs.dutyH = u₂.regs.dutyH ∨
        u₁.regs.dutyH = s₁.regs.dutyH ∧ u₂.regs.dutyH = s₂.regs.dutyH)) ∧
    (∀ raw, s₁.regs.mode = s₂.regs.mode → s₁.regs.pwmEn = s₂.regs.pwmEn →
      exec (.smpV raw) s₁ = .next u₁ → exec (.smpV raw) s₂ = .next u₂ →
      u₁.out = u₂.out ∧ (u₁.regs.dutyV = u₂.regs.dutyV ∨
        u₁.regs.dutyV = s₁.regs.dutyV ∧ u₂.regs.dutyV = s₂.regs.dutyV)) ∧
    (exec .reset s₁ = .next u₁ → exec .reset s₂ = .next u₂ →
      u₁.regs = u₂.regs ∧ u₁.out = u₂.out)

/-! ## The debounce -/

/-- R71: elapsed is the difference modulo 2^TSW (the plain difference when time has not gone
back), at most 200000 is discarded and more is accepted. -/
def Obligations.DebounceTest : Prop :=
  ∀ (c : Config) (t last : Nat), t < 2 ^ c.tsw → last < 2 ^ c.tsw →
    (elapsed c t last : ℤ) = elapsedInt c t last ∧
    (last ≤ t → elapsed c t last = t - last) ∧
    (t < last → elapsed c t last = 2 ^ c.tsw - (last - t)) ∧
    (accepted c t last = false ↔ elapsedInt c t last ≤ 200000) ∧
    (accepted c t last = true ↔ 200000 < elapsedInt c t last)

/-- R167: an elapsed time of exactly 200000 is discarded, 200001 is accepted, for both toggles. -/
def Obligations.WindowBoundaryIsDiscarded : Prop :=
  ∀ (s : State) (mk : Nat → Instr), mk = Instr.evLed ∨ mk = Instr.evPwm → s.regs.mode = .run →
    s.regs.lastTs + 200001 < 2 ^ s.cfg.tsw →
    Discarded (mk (s.regs.lastTs + 200000)) s ∧
    AcceptedAt (mk (s.regs.lastTs + 200001)) s (s.regs.lastTs + 200001)

/-- R77: a discarded event changes no state, `last_ts` included, so the window is not extended by
bounce: of events 150000 apart after an accepted one, the first is discarded and the second, of
either source, is accepted. -/
def Obligations.BounceDoesNotExtendTheWindow : Prop :=
  ∀ (s : State) (mk mk' : Nat → Instr), mk = Instr.evLed ∨ mk = Instr.evPwm →
    mk' = Instr.evLed ∨ mk' = Instr.evPwm → s.regs.mode = .run →
    (∀ t, t < 2 ^ s.cfg.tsw → s.regs.lastTs < 2 ^ s.cfg.tsw →
      elapsedInt s.cfg t s.regs.lastTs ≤ 200000 → Discarded (mk t) s) ∧
    (s.regs.lastTs + 300000 < 2 ^ s.cfg.tsw →
      ∃ u, exec (mk (s.regs.lastTs + 150000)) s = .next u ∧ u.regs = s.regs ∧
        AcceptedAt (mk' (s.regs.lastTs + 300000)) u (s.regs.lastTs + 300000))

/-- R166: after an accepted event of one toggle source at `t`, an event of the other with a
timestamp from `t` to `t` + 200000 is discarded, both ways. -/
def Obligations.CrossSourceSuppression : Prop :=
  ∀ (s : State) (t t' : Nat), s.regs.mode = .run → s.regs.lastTs < 2 ^ s.cfg.tsw →
    t < 2 ^ s.cfg.tsw → 200000 < elapsedInt s.cfg t s.regs.lastTs →
    t ≤ t' → t' ≤ t + 200000 → t' < 2 ^ s.cfg.tsw →
    (∃ u, exec (.evLed t) s = .next u ∧ u.regs.ledOn = (!s.regs.ledOn) ∧
      Discarded (.evPwm t') u) ∧
    (∃ u, exec (.evPwm t) s = .next u ∧ u.regs.pwmEn = (!s.regs.pwmEn) ∧
      Discarded (.evLed t') u)

/-- The counting law: in a run from RESET without another RESET, whose toggle events have
non-decreasing timestamps that the port can carry, any two accepted toggles are more than 200000
apart, and a toggle event in RUN more than 200000 after `last_ts` is accepted
(40_debounce_toggle.md section 3; that events in PROG are not accepted is 60_exceptions.md
section 5). -/
def Obligations.CountingLaw : Prop :=
  ∀ (s : State) (ps : List InputPorts), s.regs = Regs.afterReset s.cfg →
    (∀ p ∈ ps, p.rst = false) → (∀ t ∈ toggleTimes ps, t < 2 ^ s.cfg.tsw) →
    (toggleTimes ps).Pairwise (· ≤ ·) →
    (runOf s ps).length = ps.length ∧
    (acceptedTimes (runOf s ps)).Pairwise (fun a b => a + 200000 < b) ∧
    ∀ c ∈ runOf s ps, ∀ p rest, c.1.inputs = p :: rest → p.togglePresented = true →
      c.1.regs.mode = .run →
      (toggledIn c = true ↔ c.1.regs.lastTs + 200000 < p.evTime) ∧
      (toggledIn c = true → c.2.regs.lastTs = p.evTime)

/-- R165: after RESET a toggle event with a timestamp of at most 200000 is discarded, and every
later one that the port can carry is accepted. -/
def Obligations.PostResetWindow : Prop :=
  ∀ (s : State) (mk : Nat → Instr) (t : Nat), mk = Instr.evLed ∨ mk = Instr.evPwm →
    s.regs = Regs.afterReset s.cfg → t < 2 ^ s.cfg.tsw →
    (t ≤ 200000 → Discarded (mk t) s) ∧ (200001 ≤ t → AcceptedAt (mk t) s t)

/-- R169: with a true elapsed time below 2^TSW the timebase may wrap and the test is still right;
an event k * 2^TSW + e later, k at least 1 and e at most 200000, is wrongly discarded. -/
def Obligations.TimestampWrap : Prop :=
  ∀ (s : State) (mk : Nat → Instr) (d : Nat), mk = Instr.evLed ∨ mk = Instr.evPwm →
    s.regs.mode = .run → s.regs.lastTs < 2 ^ s.cfg.tsw →
    (d < 2 ^ s.cfg.tsw → d ≤ 200000 → Discarded (mk ((s.regs.lastTs + d) % 2 ^ s.cfg.tsw)) s) ∧
    (d < 2 ^ s.cfg.tsw → 200000 < d →
      AcceptedAt (mk ((s.regs.lastTs + d) % 2 ^ s.cfg.tsw)) s
        ((s.regs.lastTs + d) % 2 ^ s.cfg.tsw)) ∧
    (∀ k e, 1 ≤ k → e ≤ 200000 → d = k * 2 ^ s.cfg.tsw + e →
      Discarded (mk ((s.regs.lastTs + d) % 2 ^ s.cfg.tsw)) s)

/-- R170: an event older than `last_ts` is accepted, and `last_ts` moves back to it, unless it is
older by at least 2^TSW - 200000; the spec's example at TSW = 64. -/
def Obligations.BackwardTimestamp : Prop :=
  (∀ (s : State) (mk : Nat → Instr) (t : Nat), mk = Instr.evLed ∨ mk = Instr.evPwm →
    s.regs.mode = .run → s.regs.lastTs < 2 ^ s.cfg.tsw → t < s.regs.lastTs →
    (s.regs.lastTs - t < 2 ^ s.cfg.tsw - 200000 → AcceptedAt (mk t) s t) ∧
    (2 ^ s.cfg.tsw - 200000 ≤ s.regs.lastTs - t → Discarded (mk t) s)) ∧
  ∀ s : State, s.cfg.tsw = 64 → s.regs.mode = .run → s.regs.lastTs = 500000 →
    ∃ u, exec (.evLed 400000) s = .next u ∧ u.regs.lastTs = 400000 ∧
      u.regs.ledOn = (!s.regs.ledOn) ∧ Discarded (.evLed 500001) u

/-- Two accepted toggles of one flag leave both flags at their original values, whatever the
timestamps (20_memory.md section 6). -/
def Obligations.TwoAcceptedTogglesRestoreTheFlags : Prop :=
  ∀ (s u v : State) (mk : Nat → Instr) (t t' : Nat), mk = Instr.evLed ∨ mk = Instr.evPwm →
    exec (mk t) s = .next u → toggledIn (s, u) = true →
    exec (mk t') u = .next v → toggledIn (u, v) = true →
    v.regs.ledOn = s.regs.ledOn ∧ v.regs.pwmEn = s.regs.pwmEn

/-- Presenting an operation twice: a toggle event a second time changes no register, and a sample a
second time leaves the same registers and drives the same outputs (20_memory.md section 7). -/
def Obligations.SecondPresentationChangesNothing : Prop :=
  (∀ (s u : State) (mk : Nat → Instr) (t : Nat), mk = Instr.evLed ∨ mk = Instr.evPwm →
    exec (mk t) s = .next u → Discarded (mk t) u) ∧
  ∀ (s u : State) (raw : Sample),
    (exec (.smpH raw) s = .next u → exec (.smpH raw) u = .next u) ∧
    (exec (.smpV raw) s = .next u → exec (.smpV raw) u = .next u)

/-! ## The mapper -/

/-- R92 to R95: the horizontal branches, with their intensity, fraction, level, offset and ranges;
the clamp acts only at 4089..4095 and only above; a dead-zone level is gated like any other. -/
def Obligations.HorizontalMapper : Prop :=
  (∀ (c : Config) (raw : Sample) (r : Reading), r = mapSample c .horizontal raw →
    (2000 < raw.toNat →
      r.branch = .hAbove ∧ r.n = min (raw.toNat - 2000) 2088 ∧ 1 ≤ r.n ∧ r.n ≤ 2088 ∧
      r.frac = (r.n : ℚ) / 2088 ∧
      r.level = 4096 * r.n / 2088 ∧ 1 ≤ r.level ∧ r.level ≤ 4096 ∧
      r.off = 60 + 60 * r.n / 2088 ∧ 60 ≤ r.off ∧ r.off ≤ 120 ∧
      (r.n ≠ raw.toNat - 2000 ↔ 4089 ≤ raw.toNat)) ∧
    (raw.toNat < 1900 →
      r.branch = .hBelow ∧ r.n = 1900 - raw.toNat ∧ 1 ≤ r.n ∧ r.n ≤ 1900 ∧
      r.frac = (r.n : ℚ) / 1900 ∧
      r.level = 4096 * r.n / 1900 ∧ 2 ≤ r.level ∧ r.level ≤ 4096 ∧
      (r.off : ℤ) = ⌊(60 : ℚ) - 60 * r.n / 1900⌋ ∧
      r.off = 60 - (60 * r.n + 1899) / 1900 ∧ r.off ≤ 59) ∧
    (1900 ≤ raw.toNat → raw.toNat ≤ 2000 →
      r.branch = .hDead ∧ r.n = 0 ∧ r.frac = 0 ∧ r.level = 0 ∧ r.off = 60)) ∧
  (∀ c : Config, ((List.range 4096).filter fun s =>
    decide ((mapSample c .horizontal (BitVec.ofNat 12 s)).branch = .hDead)).length = 101) ∧
  ∀ (s : State) (raw : Sample), 1900 ≤ raw.toNat → raw.toNat ≤ 2000 → s.regs.mode = .run →
    ∃ u, exec (.smpH raw) s = .next u ∧ u.out.res = some ⟨.horizontal, 0#13, 60#7⟩ ∧
      (s.regs.pwmEn = true → u.out.pwm = some ⟨.horizontal, 0#13⟩ ∧ u.regs.dutyH = 0#13) ∧
      (s.regs.pwmEn = false → u.out.pwm = none ∧ u.regs.dutyH = s.regs.dutyH)

/-- R96 to R98: the vertical branches, with their intensity, fraction, level, offset, and the ranges
at the default divisors; with the alternative ones the clamp acts below for 0..111. -/
def Obligations.VerticalMapper : Prop :=
  ∀ (c : Config) (raw : Sample) (r : Reading), r = mapSample c .vertical raw →
    (2100 < raw.toNat →
      r.branch = .vAbove ∧ r.n = min (raw.toNat - 2100) c.vDivs.above ∧
      r.frac = (r.n : ℚ) / c.vDivs.above ∧
      r.level = 4096 * r.n / c.vDivs.above ∧
      (r.off : ℤ) = ⌊(30 : ℚ) - 30 * r.n / c.vDivs.above⌋ ∧
      r.off = 30 - (30 * r.n + c.vDivs.above - 1) / c.vDivs.above ∧
      (c.vDivs = .listed → c.vDivs.above = 1988 ∧ 1 ≤ r.n ∧ r.n ≤ 1988 ∧ 2 ≤ r.level ∧
        r.level ≤ 4096 ∧ r.off ≤ 29 ∧ (1988 < raw.toNat - 2100 ↔ 4089 ≤ raw.toNat))) ∧
    (raw.toNat ≤ 2100 →
      r.branch = .vBelow ∧ r.n = min (2100 - raw.toNat) c.vDivs.below ∧
      r.frac = (r.n : ℚ) / c.vDivs.below ∧
      r.level = 4096 * r.n / c.vDivs.below ∧
      r.off = 30 + 30 * r.n / c.vDivs.below ∧
      (c.vDivs = .listed → c.vDivs.below = 2100 ∧ r.n = 2100 - raw.toNat ∧ r.level ≤ 4096 ∧
        30 ≤ r.off ∧ r.off ≤ 60) ∧
      (c.vDivs = .swapped → c.vDivs.below = 1988 ∧
        (r.n ≠ 2100 - raw.toNat ↔ raw.toNat ≤ 111)))

/-- R99: the intensity is at most the divisor, so the fraction is in [0, 1], the level in 0..4096
and the offset in its branch's range; at the default divisors the level differs from the unclamped
one at 4089..4095 of each axis and nowhere else, and elsewhere the offset is the unclamped one
too. -/
def Obligations.ClampBoundsTheMapper : Prop :=
  (∀ (c : Config) (axis : Axis) (raw : Sample) (r : Reading), r = mapSample c axis raw →
    (∀ d, r.d = some d → r.n ≤ d) ∧ 0 ≤ r.frac ∧ r.frac ≤ 1 ∧ r.level ≤ 4096 ∧
    (r.branch = .hAbove → 60 ≤ r.off ∧ r.off ≤ 120) ∧ (r.branch = .hBelow → r.off ≤ 60) ∧
    (r.branch = .hDead → r.off = 60) ∧ (r.branch = .vAbove → r.off ≤ 30) ∧
    (r.branch = .vBelow → 30 ≤ r.off ∧ r.off ≤ 60)) ∧
  ∀ (c : Config) (raw : Sample), c.vDivs = .listed →
    (2000 < raw.toNat →
      ((mapSample c .horizontal raw).level ≠ 4096 * (raw.toNat - 2000) / 2088 ↔
        4089 ≤ raw.toNat)) ∧
    (2100 < raw.toNat →
      ((mapSample c .vertical raw).level ≠ 4096 * (raw.toNat - 2100) / 1988 ↔
        4089 ≤ raw.toNat)) ∧
    (raw.toNat < 1900 →
      (mapSample c .horizontal raw).level = 4096 * (1900 - raw.toNat) / 1900) ∧
    (raw.toNat ≤ 2100 →
      (mapSample c .vertical raw).level = 4096 * (2100 - raw.toNat) / 2100) ∧
    (2000 < raw.toNat → raw.toNat < 4089 →
      (mapSample c .horizontal raw).off = 60 + 60 * (raw.toNat - 2000) / 2088) ∧
    (2100 < raw.toNat → raw.toNat < 4089 →
      ((mapSample c .vertical raw).off : ℤ) = ⌊(30 : ℚ) - 30 * (raw.toNat - 2100) / 1988⌋) ∧
    (raw.toNat < 1900 →
      ((mapSample c .horizontal raw).off : ℤ) = ⌊(60 : ℚ) - 60 * (1900 - raw.toNat) / 1900⌋) ∧
    (raw.toNat ≤ 2100 →
      (mapSample c .vertical raw).off = 30 + 30 * (2100 - raw.toNat) / 2100) ∧
    (4089 ≤ raw.toNat →
      (mapSample c .horizontal raw).level = 4096 ∧ (mapSample c .horizontal raw).off = 120 ∧
      (mapSample c .vertical raw).level = 4096 ∧ (mapSample c .vertical raw).off = 0 ∧
      4097 ≤ 4096 * (raw.toNat - 2000) / 2088 ∧ 4096 * (raw.toNat - 2000) / 2088 ≤ 4109 ∧
      4098 ≤ 4096 * (raw.toNat - 2100) / 1988 ∧ 4096 * (raw.toNat - 2100) / 1988 ≤ 4110 ∧
      60 + 60 * (raw.toNat - 2000) / 2088 = 120 ∧
      ⌊(30 : ℚ) - 30 * (raw.toNat - 2100) / 1988⌋ = -1)

/-- R101: the level is floor(4096 * n / d), 0 exactly at n = 0 and 4096 exactly at n = d; 4096 is a
13-bit value and no 12-bit one, and the ports carry the level unchanged. -/
def Obligations.LevelLaw : Prop :=
  ∀ (c : Config) (axis : Axis) (raw : Sample) (r : Reading), r = mapSample c axis raw →
    (∀ d, r.d = some d → r.level = 4096 * r.n / d ∧ (r.level = 4096 ↔ r.n = d)) ∧
    (r.level = 0 ↔ r.n = 0) ∧ (r.d = none → r.level ≠ 4096) ∧
    r.levelBits.toNat = r.level ∧ 2 ^ 12 - 1 < 4096 ∧ 4096 < 2 ^ 13

/-- R106: the offset is the floor of the exact value of its branch's expression, that is
C + floor(S * n / d) or C - ceil(S * n / d), with the consequences the spec lists. -/
def Obligations.OffsetIsTheFloorOfTheWhole : Prop :=
  (∀ (c : Config) (axis : Axis) (raw : Sample) (r : Reading), r = mapSample c axis raw →
    (r.branch = .hAbove → (r.off : ℤ) = ⌊60 + 60 * r.frac⌋) ∧
    (r.branch = .hBelow → (r.off : ℤ) = ⌊60 - 60 * r.frac⌋) ∧
    (r.branch = .vAbove → (r.off : ℤ) = ⌊30 - 30 * r.frac⌋) ∧
    (r.branch = .vBelow → (r.off : ℤ) = ⌊30 + 30 * r.frac⌋) ∧
    ∀ d, r.d = some d →
      (r.branch = .hAbove → r.off = 60 + 60 * r.n / d) ∧
      (r.branch = .hBelow → r.off = 60 - (60 * r.n + d - 1) / d) ∧
      (r.branch = .vAbove → r.off = 30 - (30 * r.n + d - 1) / d) ∧
      (r.branch = .vBelow → r.off = 30 + 30 * r.n / d)) ∧
  ∀ c : Config,
    (mapSample c .horizontal 1899#12).off = 59 ∧ (mapSample c .horizontal 2001#12).off = 60 ∧
    (mapSample c .vertical 2101#12).off = 29 ∧ (mapSample c .vertical 2099#12).off = 30 ∧
    (mapSample c .horizontal 2035#12).off = 61 ∧
    ∀ raw : Sample, (mapSample c .horizontal raw).off = 61 → 2035 ≤ raw.toNat

/-- R105: each subtraction is made only in the branch where it does not borrow, every intermediate
value fits the width the spec gives it, the divisor is one of four constants, and the ports carry
the level and the offset unchanged. -/
def Obligations.NoIntermediateOverflows : Prop :=
  ∀ (c : Config) (axis : Axis) (raw : Sample) (r : Reading), r = mapSample c axis raw →
    (r.branch = .hAbove → 2000 < raw.toNat ∧ 60 * r.n ≤ 125280) ∧
    (r.branch = .hBelow → raw.toNat < 1900 ∧ 60 * r.n + 1899 ≤ 115899) ∧
    (r.branch = .vAbove → 2100 < raw.toNat) ∧ (r.branch = .vBelow → raw.toNat ≤ 2100) ∧
    (∀ d, r.d = some d →
      (d = 2088 ∨ d = 1900 ∨ d = 1988 ∨ d = 2100) ∧
      (r.branch = .vAbove ∨ r.branch = .vBelow → 30 * r.n + d - 1 ≤ 65099)) ∧
    r.n ≤ 2100 ∧ 2100 < 2 ^ 12 ∧ 4096 * r.n ≤ 8601600 ∧ 8601600 < 2 ^ 24 ∧
    125280 < 2 ^ 17 ∧ 115899 < 2 ^ 17 ∧ 65099 < 2 ^ 16 ∧
    r.levelBits.toNat = r.level ∧ r.offBits.toNat = r.off

/-- R107: the horizontal curve. Zero in the dead zone; non-decreasing away from it, the fraction
strictly up to full scale and constant beyond it; the offset non-decreasing over the whole range,
from 0 to 120. -/
def Obligations.HorizontalCurve : Prop :=
  ∀ (c : Config) (H : Sample → Reading), H = mapSample c .horizontal →
    (∀ a : Sample, 1900 ≤ a.toNat → a.toNat ≤ 2000 → (H a).frac = 0 ∧ (H a).level = 0) ∧
    (∀ a b : Sample, 2000 < a.toNat → a.toNat ≤ b.toNat →
      (H a).frac ≤ (H b).frac ∧ (H a).level ≤ (H b).level ∧ (H a).off ≤ (H b).off) ∧
    (∀ a b : Sample, 2000 < a.toNat → a.toNat < b.toNat → b.toNat ≤ 4088 →
      (H a).frac < (H b).frac) ∧
    (∀ a : Sample, 4088 ≤ a.toNat → (H a).frac = 1 ∧ (H a).off = 120) ∧
    (H 2001#12).frac = 1 / 2088 ∧
    (∀ a b : Sample, a.toNat < b.toNat → b.toNat < 1900 →
      (H b).frac < (H a).frac ∧ (H b).level ≤ (H a).level ∧ (H a).off ≤ (H b).off) ∧
    (H 0#12).frac = 1 ∧ (H 0#12).off = 0 ∧ (H 1899#12).frac = 1 / 1900 ∧
    (∀ a b : Sample, a.toNat ≤ b.toNat → (H a).off ≤ (H b).off)

/-- R108: the vertical curve at the default divisors. Zero at 2100 from the below branch; the
fraction strictly increasing away from it, with the two slopes, up to full scale and constant 1
beyond it; the offset non-increasing over the whole range, from 60 through 30 to 0. -/
def Obligations.VerticalCurve : Prop :=
  ∀ (c : Config) (V : Sample → Reading), c.vDivs = .listed → V = mapSample c .vertical →
    (V 2100#12).branch = .vBelow ∧ (V 2100#12).frac = 0 ∧
    (∀ a b : Sample, a.toNat < b.toNat → b.toNat ≤ 2100 →
      (V a).frac - (V b).frac = ((b.toNat : ℚ) - a.toNat) / 2100 ∧ (V b).frac < (V a).frac) ∧
    (V 0#12).frac = 1 ∧
    (∀ a b : Sample, 2100 < a.toNat → a.toNat < b.toNat → b.toNat ≤ 4088 →
      (V b).frac - (V a).frac = ((b.toNat : ℚ) - a.toNat) / 1988 ∧ (V a).frac < (V b).frac) ∧
    (∀ a : Sample, 4088 ≤ a.toNat → (V a).frac = 1 ∧ (V a).off = 0) ∧
    (∀ a b : Sample, a.toNat ≤ b.toNat → (V b).off ≤ (V a).off) ∧
    (V 0#12).off = 60 ∧ (V 2099#12).off = 30 ∧ (V 2100#12).off = 30

/-- The clamp at the alternative divisors acts at 0..111, where the unclamped level runs from 4098 to
4326 and the unclamped offset up to 61; the level written is 4096 and the offset 60
(41_brightness_mapper.md section 3, 70_reset_and_hazards.md section 3). -/
def Obligations.AlternativeDivisorsClampBelow : Prop :=
  ∀ (c : Config) (raw : Sample), c.vDivs = .swapped →
    (raw.toNat ≤ 111 →
      (mapSample c .vertical raw).level = 4096 ∧ (mapSample c .vertical raw).off = 60 ∧
      4098 ≤ 4096 * (2100 - raw.toNat) / 1988 ∧ 4096 * (2100 - raw.toNat) / 1988 ≤ 4326 ∧
      30 + 30 * (2100 - raw.toNat) / 1988 ≤ 61) ∧
    (111 < raw.toNat → raw.toNat ≤ 2100 →
      (mapSample c .vertical raw).level = 4096 * (2100 - raw.toNat) / 1988) ∧
    (2100 < raw.toNat →
      (mapSample c .vertical raw).level = 4096 * (raw.toNat - 2100) / 2100)

/-! ## The sample operations and the gate -/

/-- R102: SMP_H shows the level and offset of the horizontal contract on the result port in RUN,
strobes and holds the level exactly when the gate is open, and is a `nop` in PROG. -/
def Obligations.SmpHMapsAndGates : Prop :=
  (∀ (tsw : Nat) (w : BitVec 13), w.toNat / 4096 = 0 →
    decode tsw (.smp w) = .ok (.smpH (BitVec.ofNat 12 (w.toNat % 4096)))) ∧
  ∀ (raw : Sample) (s : State), ∃ level off, hContract raw.toNat level off ∧
    level ≤ 4096 ∧ off ≤ 120 ∧
    (s.regs.mode = .run → s.regs.pwmEn = true →
      exec (.smpH raw) s = .next { s with
        regs := { s.regs with dutyH := BitVec.ofNat 13 level }
        out :=
          { res := some ⟨.horizontal, BitVec.ofNat 13 level, BitVec.ofNat 7 off⟩
            pwm := some ⟨.horizontal, BitVec.ofNat 13 level⟩ } }) ∧
    (s.regs.mode = .run → s.regs.pwmEn = false →
      exec (.smpH raw) s = .next { s with
        out :=
          { res := some ⟨.horizontal, BitVec.ofNat 13 level, BitVec.ofNat 7 off⟩
            pwm := none } }) ∧
    (s.regs.mode = .prog → exec (.smpH raw) s = .next { s with out := Outputs.idle })

/-- R103: SMP_V shows the level and offset of the vertical contract on the result port in RUN,
strobes and holds the level exactly when the gate is open, and is a `nop` in PROG. -/
def Obligations.SmpVMapsAndGates : Prop :=
  (∀ (tsw : Nat) (w : BitVec 13), w.toNat / 4096 = 1 →
    decode tsw (.smp w) = .ok (.smpV (BitVec.ofNat 12 (w.toNat % 4096)))) ∧
  ∀ (raw : Sample) (s : State), ∃ level off,
    vContract s.cfg.vDivs.above s.cfg.vDivs.below raw.toNat level off ∧
    level ≤ 4096 ∧ off ≤ 60 ∧
    (s.regs.mode = .run → s.regs.pwmEn = true →
      exec (.smpV raw) s = .next { s with
        regs := { s.regs with dutyV := BitVec.ofNat 13 level }
        out :=
          { res := some ⟨.vertical, BitVec.ofNat 13 level, BitVec.ofNat 7 off⟩
            pwm := some ⟨.vertical, BitVec.ofNat 13 level⟩ } }) ∧
    (s.regs.mode = .run → s.regs.pwmEn = false →
      exec (.smpV raw) s = .next { s with
        out :=
          { res := some ⟨.vertical, BitVec.ofNat 13 level, BitVec.ofNat 7 off⟩
            pwm := none } }) ∧
    (s.regs.mode = .prog → exec (.smpV raw) s = .next { s with out := Outputs.idle })

/-- R104: the result port is valid in the cycles of a sample operation executed in RUN, whatever the
gate, with the sample's axis, level and offset, and in no other cycle. -/
def Obligations.ResultPort : Prop :=
  ∀ s : State, ∃ u, step s = .next u ∧
    (∀ p rest, s.inputs = p :: rest → p.rst = false → p.smpValid = true → s.regs.mode = .run →
      ∃ r, r = mapSample s.cfg (Axis.ofBit p.smpAxis) p.smpRaw ∧
        u.out.res = some ⟨Axis.ofBit p.smpAxis, BitVec.ofNat 13 r.level, BitVec.ofNat 7 r.off⟩ ∧
        (p.smpAxis = 0#1 → r.off ≤ 120) ∧ (p.smpAxis = 1#1 → r.off ≤ 60)) ∧
    ((∀ p rest, s.inputs = p :: rest →
        p.rst = true ∨ p.smpValid = false ∨ s.regs.mode = .prog) → u.out.res = none)

/-- R120: a sample operation in RUN writes its level exactly when `pwm_en` is 1 before it, whatever
the level, the axis, the branch and `led_on`; a level of 0 is written like any other. -/
def Obligations.GateDecision : Prop :=
  ∀ (s : State) (axis : Axis) (raw : Sample) (i : Instr),
    (axis = .horizontal ∧ i = .smpH raw) ∨ (axis = .vertical ∧ i = .smpV raw) →
    s.regs.mode = .run → ∃ u, exec i s = .next u ∧
      (s.regs.pwmEn = true →
        u.out.pwm = some ⟨axis, BitVec.ofNat 13 (mapSample s.cfg axis raw).level⟩ ∧
        u.regs.duty axis = BitVec.ofNat 13 (mapSample s.cfg axis raw).level) ∧
      (s.regs.pwmEn = false → u.out.pwm = none ∧ u.regs = s.regs)

/-- R121: the write port strobes in the cycles of a sample operation executed in RUN with the gate
open, with the sample's axis and level, and in no other; so a run has as many strobes as such
cycles. -/
def Obligations.StrobesCountOpenSamples : Prop :=
  (∀ s : State, ∃ u, step s = .next u ∧
    (∀ p rest, s.inputs = p :: rest → p.rst = false → p.smpValid = true → s.regs.mode = .run →
      s.regs.pwmEn = true →
      u.out.pwm = some ⟨Axis.ofBit p.smpAxis,
        BitVec.ofNat 13 (mapSample s.cfg (Axis.ofBit p.smpAxis) p.smpRaw).level⟩) ∧
    ((∀ p rest, s.inputs = p :: rest → p.rst = true ∨ p.smpValid = false ∨
        s.regs.mode = .prog ∨ s.regs.pwmEn = false) → u.out.pwm = none)) ∧
  ∀ (s : State) (ps : List InputPorts),
    (runOf s ps).length = ps.length ∧
    (runOf s ps).countP (fun c => c.2.out.pwm.isSome) = (runOf s ps).countP openSample

/-- R122: the multiplexer of each axis, and over a run without RESET from the reset registers: each
duty register equals the level of the most recent strobe of its axis, or 0 if there was none. -/
def Obligations.DutyHoldsTheLastWrite : Prop :=
  (∀ (s u : State) (raw : Sample), s.regs.mode = .run →
    (exec (.smpH raw) s = .next u →
      u.regs.dutyH = (if s.regs.pwmEn = true
        then BitVec.ofNat 13 (mapSample s.cfg .horizontal raw).level else s.regs.dutyH) ∧
      u.regs.dutyV = s.regs.dutyV) ∧
    (exec (.smpV raw) s = .next u →
      u.regs.dutyV = (if s.regs.pwmEn = true
        then BitVec.ofNat 13 (mapSample s.cfg .vertical raw).level else s.regs.dutyV) ∧
      u.regs.dutyH = s.regs.dutyH)) ∧
  (∀ (s u : State) (t : Nat), exec (.evNone t) s = .next u ∨ exec (.evProg t) s = .next u ∨
      exec (.evLed t) s = .next u ∨ exec (.evPwm t) s = .next u →
    u.regs.dutyH = s.regs.dutyH ∧ u.regs.dutyV = s.regs.dutyV) ∧
  ∀ (s : State) (ps : List InputPorts) (axis : Axis), s.regs = Regs.afterReset s.cfg →
    (∀ p ∈ ps, p.rst = false) →
    (runOf s ps).length = ps.length ∧
    (s.afterRun ps).regs.duty axis =
      (((runOf s ps).filterMap (writtenLevel axis)).getLast?).getD 0#13

/-- R123: an EV_PWM that closes the gate changes no duty register and strobes nothing, and for as
long as the gate stays closed and RESET is not presented both duty registers hold and nothing is
strobed, whatever is presented. -/
def Obligations.ClosedGateHoldsTheLevels : Prop :=
  (∀ (s u : State) (t : Nat), exec (.evPwm t) s = .next u →
    u.regs.dutyH = s.regs.dutyH ∧ u.regs.dutyV = s.regs.dutyV ∧ u.out.pwm = none) ∧
  ∀ (s : State) (ps : List InputPorts), s.regs.pwmEn = false → (∀ p ∈ ps, p.rst = false) →
    (∀ c ∈ runOf s ps, c.2.regs.pwmEn = false) →
    (runOf s ps).length = ps.length ∧
    ∀ c ∈ runOf s ps, c.2.regs.dutyH = s.regs.dutyH ∧ c.2.regs.dutyV = s.regs.dutyV ∧
      c.2.out.pwm = none

/-- R124: opening the gate strobes nothing and leaves the duty registers; the next sample of an axis
writes the level of that sample, not one computed while the gate was closed. -/
def Obligations.OpeningTheGateWritesNothing : Prop :=
  ∀ (s a b : State) (axis : Axis) (mk : Sample → Instr) (raw raw' : Sample) (t : Nat),
    (axis = .horizontal ∧ mk = Instr.smpH) ∨ (axis = .vertical ∧ mk = Instr.smpV) →
    s.regs.mode = .run → s.regs.pwmEn = false →
    exec (mk raw) s = .next a → exec (.evPwm t) a = .next b → b.regs.pwmEn = true →
    b.out.pwm = none ∧ b.regs.dutyH = s.regs.dutyH ∧ b.regs.dutyV = s.regs.dutyV ∧
    ∃ u, exec (mk raw') b = .next u ∧
      u.out.pwm = some ⟨axis, BitVec.ofNat 13 (mapSample s.cfg axis raw').level⟩ ∧
      u.regs.duty axis = BitVec.ofNat 13 (mapSample s.cfg axis raw').level

/-- R127: the gate changes only in a cycle that presents RESET or an accepted EV_PWM in RUN, and the
LED flag only in one that presents RESET or an accepted EV_LED; neither flag has a part in the
other's toggle. -/
def Obligations.OnlyItsToggleAndResetChangeAFlag : Prop :=
  (∀ (s u : State) (t : Nat) (b : Bool),
    (exec (.evPwm t) s = .next u →
      exec (.evPwm t) { s with regs := { s.regs with ledOn := b } } =
        .next { u with regs := { u.regs with ledOn := b } }) ∧
    (exec (.evLed t) s = .next u →
      exec (.evLed t) { s with regs := { s.regs with pwmEn := b } } =
        .next { u with regs := { u.regs with pwmEn := b } })) ∧
  ∀ s u : State, step s = .next u → s.regs.lastTs < 2 ^ s.cfg.tsw →
    (u.regs.pwmEn ≠ s.regs.pwmEn →
      ∃ p rest, s.inputs = p :: rest ∧ (p.rst = true ∨
        (p.evValid = true ∧ p.evSrc = 0b11#2 ∧ s.regs.mode = .run ∧
          200000 < elapsedInt s.cfg (p.evTime % 2 ^ s.cfg.tsw) s.regs.lastTs))) ∧
    (u.regs.ledOn ≠ s.regs.ledOn →
      ∃ p rest, s.inputs = p :: rest ∧ (p.rst = true ∨
        (p.evValid = true ∧ p.evSrc = 0b10#2 ∧ s.regs.mode = .run ∧
          200000 < elapsedInt s.cfg (p.evTime % 2 ^ s.cfg.tsw) s.regs.lastTs)))

/-- R22: a level reaches a duty register or the write port only in a cycle whose sample read
`pwm_en` = 1 in RUN, and closing the gate changes neither duty register. -/
def Obligations.LevelsPassOnlyAnOpenGate : Prop :=
  (∀ s u : State, step s = .next u →
    (u.out.pwm ≠ none ∨
      ((∀ p rest, s.inputs = p :: rest → p.rst = false) ∧
        (u.regs.dutyH ≠ s.regs.dutyH ∨ u.regs.dutyV ≠ s.regs.dutyV))) →
    s.regs.pwmEn = true ∧ s.regs.mode = .run ∧
      ∃ p rest, s.inputs = p :: rest ∧ p.rst = false ∧ p.smpValid = true) ∧
  ∀ (s u : State) (t : Nat), exec (.evPwm t) s = .next u → u.regs.pwmEn = false →
    u.regs.dutyH = s.regs.dutyH ∧ u.regs.dutyV = s.regs.dutyV

/-! ## Programming mode -/

/-- R143: PROG is absorbing. Over any run without RESET from PROG no register changes, no strobe is
driven and the register-driven outputs keep their values with `prog_req` = 1; RESET leaves PROG. -/
def Obligations.ProgIsAbsorbing : Prop :=
  (∀ (s : State) (ps : List InputPorts), s.regs.mode = .prog → (∀ p ∈ ps, p.rst = false) →
    (runOf s ps).length = ps.length ∧
    ∀ c ∈ runOf s ps, c.2.regs = s.regs ∧ c.2.out = Outputs.idle ∧ c.2.cfg = s.cfg ∧
      cyclePorts c.1 c.2 =
        { resValid := false, resAxis := none, resLevel := none, resOff := none
          pwmWr := false, pwmAxis := none, pwmLevel := none
          dutyHOut := s.regs.dutyH, dutyVOut := s.regs.dutyV, ledOut := s.regs.ledOn
          progReq := true, dispInvert := s.cfg.invertConst }) ∧
  ∀ s : State, s.regs.mode = .prog → ∃ u, exec .reset s = .next u ∧ u.regs.mode = .run

/-- R14: `mode` is 0 in RUN and 1 in PROG; it changes from RUN to PROG only in a cycle that presents
EV_PROG, and from PROG to RUN only under RESET; in PROG no cycle without RESET changes any
register. -/
def Obligations.OnlyEvProgAndResetChangeTheMode : Prop :=
  (Mode.run.bit = 0#1 ∧ Mode.prog.bit = 1#1) ∧ ∀ s u : State, step s = .next u →
    (s.regs.mode = .run → u.regs.mode = .prog →
      ∃ p rest, s.inputs = p :: rest ∧ p.rst = false ∧ p.evValid = true ∧ p.evSrc = 0b01#2) ∧
    (s.regs.mode = .prog → u.regs ≠ s.regs → ∃ p rest, s.inputs = p :: rest ∧ p.rst = true)

/-! ## Reset, outputs and the invariant -/

/-- R160: RESET writes every register to its reset value in RUN and in PROG alike, strobes nothing,
and a second RESET changes nothing more. -/
def Obligations.ResetWritesEveryRegister : Prop :=
  (∀ tsw : Nat, decode tsw (.pin 1#1) = .ok .reset) ∧
  (∀ s : State, exec .reset s = .next { s with
    regs :=
      { lastTs := 0, ledOn := s.cfg.rstLedOn, pwmEn := s.cfg.rstPwmEn, mode := .run,
        dutyH := 0#13, dutyV := 0#13 }
    out := Outputs.idle }) ∧
  (∀ s u : State, exec .reset s = .next u → exec .reset u = .next u) ∧
  Config.default.rstLedOn = false ∧ Config.default.rstPwmEn = true

/-- The machine starts in the state RESET leaves at the default parameters: (0, 0, 1, RUN, 0, 0)
(10_state.md section 5; that it starts after RESET is 70_reset_and_hazards.md section 1, log 8). -/
def Obligations.MachineStartsAfterReset : Prop :=
  Sys2Proof.core.reset = State.reset ∧
  State.reset.regs =
    { lastTs := 0, ledOn := false, pwmEn := true, mode := .run, dutyH := 0#13, dutyV := 0#13 } ∧
  State.reset.cfg = Config.default ∧ State.reset.out = Outputs.idle ∧ State.reset.inputs = [] ∧
  exec .reset State.reset = .next State.reset

/-- R162: in the first cycle after a RESET the register-driven outputs show the reset values, and
no strobe is driven unless that cycle carries a sample. -/
def Obligations.OutputsAfterReset : Prop :=
  ∀ s t : State, exec .reset s = .next t → ∃ u, step t = .next u ∧
    (cyclePorts t u).dutyHOut = 0#13 ∧ (cyclePorts t u).dutyVOut = 0#13 ∧
    (cyclePorts t u).ledOut = s.cfg.rstLedOn ∧ (cyclePorts t u).progReq = false ∧
    (cyclePorts t u).dispInvert = s.cfg.invertConst ∧
    ((∀ p rest, t.inputs = p :: rest → p.rst = true ∨ p.smpValid = false) →
      (cyclePorts t u).resValid = false ∧ (cyclePorts t u).pwmWr = false)

/-- R125: the register-driven outputs of a cycle show the registers the cycle began with, so what a
cycle writes is on them from the next cycle on; `disp_invert` never changes. -/
def Obligations.OutputsFollowTheRegisters : Prop :=
  ∀ s t u : State, step s = .next t → step t = .next u →
    (cyclePorts s t).dutyHOut = s.regs.dutyH ∧ (cyclePorts t u).dutyHOut = t.regs.dutyH ∧
    (cyclePorts s t).dutyVOut = s.regs.dutyV ∧ (cyclePorts t u).dutyVOut = t.regs.dutyV ∧
    (cyclePorts s t).ledOut = s.regs.ledOn ∧ (cyclePorts t u).ledOut = t.regs.ledOn ∧
    ((cyclePorts s t).progReq = true ↔ s.regs.mode = .prog) ∧
    ((cyclePorts t u).progReq = true ↔ t.regs.mode = .prog) ∧
    (cyclePorts s t).dispInvert = s.cfg.invertConst ∧
    (cyclePorts t u).dispInvert = s.cfg.invertConst

/-- Every step keeps the register values that exist: `last_ts` a TSW-bit number and both duty
registers at most 4096, from every state in which they are (10_state.md sections 1 and 6). -/
def Obligations.EveryStepKeepsTheRegisterRanges : Prop :=
  ∀ s u : State, s.Wf → step s = .next u → u.Wf

/-- The register values after reset exist, at every choice of parameters (10_state.md sections 5
and 6). -/
def Obligations.ResetHasTheRegisterRanges : Prop :=
  State.reset.Wf ∧ ∀ c : Config, (State.resetWith c).Wf

/-- R21: in every state a run from RESET reaches both duty levels are at most 4096, and once `mode`
is PROG every register keeps its value until the next RESET. -/
def Obligations.ReachableRegisterValues : Prop :=
  ∀ (s : State) (ps : List InputPorts), s.regs = Regs.afterReset s.cfg →
    (runOf s ps).length = ps.length ∧
    ∀ c ∈ runOf s ps,
      c.2.regs.dutyH.toNat ≤ 4096 ∧ c.2.regs.dutyV.toNat ≤ 4096 ∧
      (c.1.regs.mode = .prog → (∀ p rest, c.1.inputs = p :: rest → p.rst = false) →
        c.2.regs = c.1.regs)
end

