-- ==== Sys2Proof/Laws/Decode.lean ====
section
/-!
SUPPORT. The fields of a word the encoder writes, and which operations a decoder can answer.
-/

namespace Sys2Proof

@[simp] theorem EvSource.ofBits_bits (e : EvSource) : EvSource.ofBits e.bits = e := by
  cases e <;> rfl

@[simp] theorem EvSource.bits_ofBits (b : BitVec 2) : (EvSource.ofBits b).bits = b := by
  revert b; decide

@[simp] theorem Axis.ofBit_bit (a : Axis) : Axis.ofBit a.bit = a := by cases a <;> rfl

@[simp] theorem Axis.bit_ofBit (b : BitVec 1) : (Axis.ofBit b).bit = b := by
  revert b; decide

/-- The number an event word is: the source code above the timestamp. -/
theorem encodeEv_toNat (tsw : Nat) (src : EvSource) (t : Nat) :
    (encodeEv tsw src t).toNat = src.bits.toNat * 2 ^ tsw + t % 2 ^ tsw := by
  have h : t % 2 ^ tsw < 2 ^ tsw := Nat.mod_lt _ (Nat.two_pow_pos _)
  simp only [encodeEv, BitVec.toNat_append, BitVec.toNat_ofNat]
  rw [Nat.shiftLeft_eq, Nat.mul_comm, ← Nat.two_pow_add_eq_or_of_lt h]

@[simp] theorem evSrcField_encodeEv (tsw : Nat) (src : EvSource) (t : Nat) :
    evSrcField tsw (encodeEv tsw src t) = src.bits := by
  apply BitVec.eq_of_toNat_eq
  have h : t % 2 ^ tsw < 2 ^ tsw := Nat.mod_lt _ (Nat.two_pow_pos _)
  have hs : src.bits.toNat < 4 := src.bits.isLt
  simp only [evSrcField, BitVec.extractLsb'_toNat, encodeEv_toNat, Nat.shiftRight_eq_div_pow]
  rw [Nat.mul_comm, Nat.mul_add_div (Nat.two_pow_pos _), Nat.div_eq_of_lt h]
  omega

@[simp] theorem evTimeField_encodeEv (tsw : Nat) (src : EvSource) (t : Nat) :
    evTimeField tsw (encodeEv tsw src t) = t % 2 ^ tsw := by
  simp only [evTimeField, BitVec.extractLsb'_toNat, encodeEv_toNat, Nat.shiftRight_zero]
  rw [Nat.mul_comm, Nat.mul_add_mod, Nat.mod_mod]

/-- An event word is its two fields. -/
theorem encodeEv_fields (tsw : Nat) (w : BitVec (2 + tsw)) :
    encodeEv tsw (EvSource.ofBits (evSrcField tsw w)) (evTimeField tsw w) = w := by
  apply BitVec.eq_of_toNat_eq
  have hw : w.toNat < 2 ^ (2 + tsw) := w.isLt
  rw [Nat.pow_add] at hw
  have hd : w.toNat / 2 ^ tsw < 4 := by
    rw [Nat.div_lt_iff_lt_mul (Nat.two_pow_pos _)]; omega
  rw [encodeEv_toNat, EvSource.bits_ofBits]
  simp only [evSrcField, evTimeField, BitVec.extractLsb'_toNat, Nat.shiftRight_eq_div_pow,
    Nat.pow_zero, Nat.div_one, Nat.mod_mod]
  rw [Nat.mod_eq_of_lt (by omega : w.toNat / 2 ^ tsw < 2 ^ 2)]
  exact Nat.div_add_mod' _ _

/-- The number a sample word is: the axis bit above the sample. -/
theorem encodeSmp_toNat (a : Axis) (raw : Sample) :
    (encodeSmp a raw).toNat = a.bit.toNat * 4096 + raw.toNat := by
  have h : raw.toNat < 2 ^ 12 := raw.isLt
  change (a.bit ++ raw : BitVec (1 + 12)).toNat = _
  rw [BitVec.toNat_append, Nat.shiftLeft_eq, Nat.mul_comm, ← Nat.two_pow_add_eq_or_of_lt h,
    Nat.mul_comm]

@[simp] theorem smpAxisField_encodeSmp (a : Axis) (raw : Sample) :
    smpAxisField (encodeSmp a raw) = a.bit := by
  apply BitVec.eq_of_toNat_eq
  have h : raw.toNat < 2 ^ 12 := raw.isLt
  have ha : a.bit.toNat < 2 ^ 1 := a.bit.isLt
  simp only [smpAxisField, BitVec.extractLsb'_toNat, encodeSmp_toNat, Nat.shiftRight_eq_div_pow]
  omega

@[simp] theorem smpRawField_encodeSmp (a : Axis) (raw : Sample) :
    smpRawField (encodeSmp a raw) = raw := by
  apply BitVec.eq_of_toNat_eq
  have h : raw.toNat < 2 ^ 12 := raw.isLt
  simp only [smpRawField, BitVec.extractLsb'_toNat, encodeSmp_toNat, Nat.shiftRight_eq_div_pow]
  omega

/-- A sample word is its two fields. -/
theorem encodeSmp_fields (w : BitVec 13) :
    encodeSmp (Axis.ofBit (smpAxisField w)) (smpRawField w) = w := by
  apply BitVec.eq_of_toNat_eq
  have hw : w.toNat < 8192 := w.isLt
  rw [encodeSmp_toNat, Axis.bit_ofBit]
  simp only [smpAxisField, smpRawField, BitVec.extractLsb'_toNat, Nat.shiftRight_eq_div_pow]
  omega

/-- The four operations an event word can be, by its source code. -/
theorem decodeEv_cases (tsw : Nat) (w : BitVec (2 + tsw)) :
    (EvSource.ofBits (evSrcField tsw w) = .none ∧ decodeEv tsw w = .evNone (evTimeField tsw w)) ∨
    (EvSource.ofBits (evSrcField tsw w) = .prog ∧ decodeEv tsw w = .evProg (evTimeField tsw w)) ∨
    (EvSource.ofBits (evSrcField tsw w) = .led ∧ decodeEv tsw w = .evLed (evTimeField tsw w)) ∨
    (EvSource.ofBits (evSrcField tsw w) = .pwm ∧ decodeEv tsw w = .evPwm (evTimeField tsw w)) := by
  unfold decodeEv
  cases EvSource.ofBits (evSrcField tsw w) <;> simp

/-- The two operations a sample word can be, by its axis. -/
theorem decodeSmp_cases (w : BitVec 13) :
    (Axis.ofBit (smpAxisField w) = .horizontal ∧ decodeSmp w = .smpH (smpRawField w)) ∨
    (Axis.ofBit (smpAxisField w) = .vertical ∧ decodeSmp w = .smpV (smpRawField w)) := by
  unfold decodeSmp
  cases Axis.ofBit (smpAxisField w) <;> simp

end Sys2Proof
end

