-- ==== Sys2Proof/Laws/Mapper.lean ====
section
/-!
SUPPORT. The mapper with its constants written out: everything it can answer, said once.
-/

namespace Sys2Proof.Machine

/-- Branch H_ABOVE, in numbers. -/
theorem readHAbove_eq (s : Nat) : readHAbove s =
    { branch := .hAbove, n := min (s - 2000) 2088, d := some 2088,
      level := 4096 * min (s - 2000) 2088 / 2088,
      off := 60 + 60 * min (s - 2000) 2088 / 2088 } := rfl

/-- Branch H_BELOW, in numbers. -/
theorem readHBelow_eq (s : Nat) : readHBelow s =
    { branch := .hBelow, n := min (1900 - s) 1900, d := some 1900,
      level := 4096 * min (1900 - s) 1900 / 1900,
      off := 60 - (60 * min (1900 - s) 1900 + 1900 - 1) / 1900 } := rfl

/-- Branch H_DEAD, in numbers. -/
theorem readHDead_eq : readHDead =
    { branch := .hDead, n := 0, d := none, level := 0, off := 60 } := rfl

/-- Branch V_ABOVE, in numbers. -/
theorem readVAbove_eq (c : Config) (s : Nat) : readVAbove c s =
    { branch := .vAbove, n := min (s - 2100) c.vDivs.above, d := some c.vDivs.above,
      level := 4096 * min (s - 2100) c.vDivs.above / c.vDivs.above,
      off := 30 - (30 * min (s - 2100) c.vDivs.above + c.vDivs.above - 1) / c.vDivs.above } := rfl

/-- Branch V_BELOW, in numbers. -/
theorem readVBelow_eq (c : Config) (s : Nat) : readVBelow c s =
    { branch := .vBelow, n := min (2100 - s) c.vDivs.below, d := some c.vDivs.below,
      level := 4096 * min (2100 - s) c.vDivs.below / c.vDivs.below,
      off := 30 + 30 * min (2100 - s) c.vDivs.below / c.vDivs.below } := rfl

/-- The three branches a horizontal sample can take. -/
theorem mapSample_horizontal_cases (c : Config) (raw : Sample) :
    (2000 < raw.toNat ∧ mapSample c .horizontal raw = readHAbove raw.toNat) ∨
    (raw.toNat < 1900 ∧ mapSample c .horizontal raw = readHBelow raw.toNat) ∨
    (1900 ≤ raw.toNat ∧ raw.toNat ≤ 2000 ∧ mapSample c .horizontal raw = readHDead) := by
  unfold mapSample branchOf hBranch sampleValue
  simp only [hThHi, hThLo]
  by_cases h : 2000 < raw.toNat
  · exact .inl ⟨h, by rw [if_pos h, readBranch]⟩
  · by_cases h' : raw.toNat < 1900
    · exact .inr (.inl ⟨h', by rw [if_neg h, if_pos h', readBranch]⟩)
    · exact .inr (.inr ⟨by omega, by omega, by rw [if_neg h, if_neg h', readBranch]⟩)

/-- The two branches a vertical sample can take. -/
theorem mapSample_vertical_cases (c : Config) (raw : Sample) :
    (2100 < raw.toNat ∧ mapSample c .vertical raw = readVAbove c raw.toNat) ∨
    (raw.toNat ≤ 2100 ∧ mapSample c .vertical raw = readVBelow c raw.toNat) := by
  unfold mapSample branchOf vBranch sampleValue
  simp only [vTh]
  by_cases h : 2100 < raw.toNat
  · exact .inl ⟨h, by rw [if_pos h, readBranch]⟩
  · exact .inr ⟨by omega, by rw [if_neg h, readBranch]⟩

/-- Both vertical divisors are positive, so no division is by zero. -/
theorem vDivs_pos (v : VDivs) : 0 < v.above ∧ 0 < v.below := by cases v <;> decide

end Sys2Proof.Machine
end

