-- ==== Sys2Proof/Laws/State.lean ====
section
/-!
SUPPORT. What each update of the state and of the registers leaves in each field.
-/

namespace Sys2Proof.Machine

/-! ## The state's updates -/

@[simp] theorem State.nop_cfg (s : State) : s.nop.cfg = s.cfg := rfl
@[simp] theorem State.nop_regs (s : State) : s.nop.regs = s.regs := rfl
@[simp] theorem State.nop_inputs (s : State) : s.nop.inputs = s.inputs := rfl
@[simp] theorem State.nop_out (s : State) : s.nop.out = Outputs.idle := rfl

@[simp] theorem State.setRegs_cfg (s : State) (r : Regs) : (s.setRegs r).cfg = s.cfg := rfl
@[simp] theorem State.setRegs_regs (s : State) (r : Regs) : (s.setRegs r).regs = r := rfl
@[simp] theorem State.setRegs_inputs (s : State) (r : Regs) : (s.setRegs r).inputs = s.inputs := rfl
@[simp] theorem State.setRegs_out (s : State) (r : Regs) : (s.setRegs r).out = Outputs.idle := rfl

@[simp] theorem State.enterProg_cfg (s : State) : s.enterProg.cfg = s.cfg := rfl
@[simp] theorem State.enterProg_regs (s : State) :
    s.enterProg.regs = { s.regs with mode := .prog } := rfl
@[simp] theorem State.enterProg_inputs (s : State) : s.enterProg.inputs = s.inputs := rfl
@[simp] theorem State.enterProg_out (s : State) : s.enterProg.out = Outputs.idle := rfl

@[simp] theorem State.advance_cfg (s : State) : s.advance.cfg = s.cfg := rfl
@[simp] theorem State.advance_regs (s : State) : s.advance.regs = s.regs := rfl
@[simp] theorem State.advance_inputs (s : State) : s.advance.inputs = s.inputs.tail := rfl
@[simp] theorem State.advance_out (s : State) : s.advance.out = s.out := rfl

@[simp] theorem State.withOutputsOf_cfg (a b : State) : (a.withOutputsOf b).cfg = a.cfg := rfl
@[simp] theorem State.withOutputsOf_regs (a b : State) : (a.withOutputsOf b).regs = a.regs := rfl
@[simp] theorem State.withOutputsOf_inputs (a b : State) :
    (a.withOutputsOf b).inputs = a.inputs := rfl
@[simp] theorem State.withOutputsOf_out (a b : State) : (a.withOutputsOf b).out = b.out := rfl

@[simp] theorem State.presentNext_cfg (s : State) (p : InputPorts) :
    (s.presentNext p).cfg = s.cfg := rfl
@[simp] theorem State.presentNext_regs (s : State) (p : InputPorts) :
    (s.presentNext p).regs = s.regs := rfl
@[simp] theorem State.presentNext_inputs (s : State) (p : InputPorts) :
    (s.presentNext p).inputs = p :: s.inputs := rfl
@[simp] theorem State.presentNext_out (s : State) (p : InputPorts) :
    (s.presentNext p).out = s.out := rfl

@[simp] theorem State.resetWith_cfg (c : Config) : (State.resetWith c).cfg = c := rfl
@[simp] theorem State.resetWith_regs (c : Config) :
    (State.resetWith c).regs = Regs.afterReset c := rfl
@[simp] theorem State.resetWith_inputs (c : Config) : (State.resetWith c).inputs = [] := rfl
@[simp] theorem State.resetWith_out (c : Config) : (State.resetWith c).out = Outputs.idle := rfl

/-! ## The registers' updates -/

@[simp] theorem Regs.afterReset_lastTs (c : Config) : (Regs.afterReset c).lastTs = 0 := rfl
@[simp] theorem Regs.afterReset_ledOn (c : Config) : (Regs.afterReset c).ledOn = c.rstLedOn := rfl
@[simp] theorem Regs.afterReset_pwmEn (c : Config) : (Regs.afterReset c).pwmEn = c.rstPwmEn := rfl
@[simp] theorem Regs.afterReset_mode (c : Config) : (Regs.afterReset c).mode = .run := rfl
@[simp] theorem Regs.afterReset_dutyH (c : Config) : (Regs.afterReset c).dutyH = 0#13 := rfl
@[simp] theorem Regs.afterReset_dutyV (c : Config) : (Regs.afterReset c).dutyV = 0#13 := rfl

@[simp] theorem Regs.acceptLed_lastTs (r : Regs) (t : Nat) : (r.acceptLed t).lastTs = t := rfl
@[simp] theorem Regs.acceptLed_ledOn (r : Regs) (t : Nat) : (r.acceptLed t).ledOn = !r.ledOn := rfl
@[simp] theorem Regs.acceptLed_pwmEn (r : Regs) (t : Nat) : (r.acceptLed t).pwmEn = r.pwmEn := rfl
@[simp] theorem Regs.acceptLed_mode (r : Regs) (t : Nat) : (r.acceptLed t).mode = r.mode := rfl
@[simp] theorem Regs.acceptLed_dutyH (r : Regs) (t : Nat) : (r.acceptLed t).dutyH = r.dutyH := rfl
@[simp] theorem Regs.acceptLed_dutyV (r : Regs) (t : Nat) : (r.acceptLed t).dutyV = r.dutyV := rfl

@[simp] theorem Regs.acceptPwm_lastTs (r : Regs) (t : Nat) : (r.acceptPwm t).lastTs = t := rfl
@[simp] theorem Regs.acceptPwm_ledOn (r : Regs) (t : Nat) : (r.acceptPwm t).ledOn = r.ledOn := rfl
@[simp] theorem Regs.acceptPwm_pwmEn (r : Regs) (t : Nat) : (r.acceptPwm t).pwmEn = !r.pwmEn := rfl
@[simp] theorem Regs.acceptPwm_mode (r : Regs) (t : Nat) : (r.acceptPwm t).mode = r.mode := rfl
@[simp] theorem Regs.acceptPwm_dutyH (r : Regs) (t : Nat) : (r.acceptPwm t).dutyH = r.dutyH := rfl
@[simp] theorem Regs.acceptPwm_dutyV (r : Regs) (t : Nat) : (r.acceptPwm t).dutyV = r.dutyV := rfl

@[simp] theorem Regs.setDuty_lastTs (r : Regs) (a : Axis) (l : Level) :
    (r.setDuty a l).lastTs = r.lastTs := by cases a <;> rfl
@[simp] theorem Regs.setDuty_ledOn (r : Regs) (a : Axis) (l : Level) :
    (r.setDuty a l).ledOn = r.ledOn := by cases a <;> rfl
@[simp] theorem Regs.setDuty_pwmEn (r : Regs) (a : Axis) (l : Level) :
    (r.setDuty a l).pwmEn = r.pwmEn := by cases a <;> rfl
@[simp] theorem Regs.setDuty_mode (r : Regs) (a : Axis) (l : Level) :
    (r.setDuty a l).mode = r.mode := by cases a <;> rfl
@[simp] theorem Regs.setDuty_horizontal_dutyH (r : Regs) (l : Level) :
    (r.setDuty .horizontal l).dutyH = l := rfl
@[simp] theorem Regs.setDuty_horizontal_dutyV (r : Regs) (l : Level) :
    (r.setDuty .horizontal l).dutyV = r.dutyV := rfl
@[simp] theorem Regs.setDuty_vertical_dutyH (r : Regs) (l : Level) :
    (r.setDuty .vertical l).dutyH = r.dutyH := rfl
@[simp] theorem Regs.setDuty_vertical_dutyV (r : Regs) (l : Level) :
    (r.setDuty .vertical l).dutyV = l := rfl

@[simp] theorem Regs.duty_setDuty_same (r : Regs) (a : Axis) (l : Level) :
    (r.setDuty a l).duty a = l := by cases a <;> rfl

/-- A level written for one axis leaves the other axis's register alone. -/
theorem Regs.duty_setDuty_other (r : Regs) (a b : Axis) (l : Level) (h : b ≠ a) :
    (r.setDuty a l).duty b = r.duty b := by
  cases a <;> cases b <;> first | rfl | exact absurd rfl h

end Sys2Proof.Machine
end

