-- ==== Sys2Proof/Laws/Ops.lean ====
section
/-!
SUPPORT. For each shared operation, everything it can do, so that no proof unfolds it again.
-/

namespace Sys2Proof.Machine

/-! ## Operands -/

/-- A timestamp the port can carry reaches the block as it is. -/
theorem portTime_of_fits {c : Config} {t : Nat} (h : t < 2 ^ c.tsw) : portTime c t = t :=
  Nat.mod_eq_of_lt h

/-- What reaches the block is a TSW-bit number. -/
theorem portTime_lt (c : Config) (t : Nat) : portTime c t < 2 ^ c.tsw :=
  Nat.mod_lt _ (Nat.two_pow_pos _)

/-- Elapsed time is a TSW-bit number. -/
theorem elapsed_lt (c : Config) (t last : Nat) : elapsed c t last < 2 ^ c.tsw :=
  Nat.mod_lt _ (Nat.two_pow_pos _)

/-- No borrow: the plain difference. -/
theorem elapsed_of_le {c : Config} {t last : Nat} (ht : t < 2 ^ c.tsw) (h : last ≤ t) :
    elapsed c t last = t - last := by
  have hl : last < 2 ^ c.tsw := lt_of_le_of_lt h ht
  unfold elapsed
  rw [portTime_of_fits ht, Nat.mod_eq_of_lt hl,
    show t + (2 ^ c.tsw - last) = (t - last) + 2 ^ c.tsw by omega, Nat.add_mod_right]
  exact Nat.mod_eq_of_lt (by omega)

/-- With a borrow: the difference from the modulus. -/
theorem elapsed_of_lt {c : Config} {t last : Nat} (hl : last < 2 ^ c.tsw) (h : t < last) :
    elapsed c t last = 2 ^ c.tsw - (last - t) := by
  have ht : t < 2 ^ c.tsw := lt_trans h hl
  unfold elapsed
  rw [portTime_of_fits ht, Nat.mod_eq_of_lt hl]
  rw [show t + (2 ^ c.tsw - last) = 2 ^ c.tsw - (last - t) by omega]
  exact Nat.mod_eq_of_lt (by omega)

/-- The debounce test, as a proposition. -/
theorem accepted_iff (c : Config) (t last : Nat) :
    accepted c t last = true ↔ debounceUs < elapsed c t last := by
  simp [accepted]

/-- A timestamp has at least 18 bits, so every value of the window is one. -/
theorem window_fits (c : Config) : debounceUs + 1 < 2 ^ c.tsw :=
  lt_of_lt_of_le (by decide) (Nat.pow_le_pow_right (by decide) c.tsw_legal)

/-! ## The shared operations -/

/-- RUN has the effect, PROG is a `nop`. -/
theorem State.inRun_cases (s e : State) :
    (s.regs.mode = .run ∧ s.inRun e = e) ∨ (s.regs.mode = .prog ∧ s.inRun e = s.nop) := by
  unfold State.inRun
  cases s.regs.mode <;> simp

@[simp] theorem State.inRun_run {s : State} (e : State) (h : s.regs.mode = .run) :
    s.inRun e = e := by simp [State.inRun, h]

@[simp] theorem State.inRun_prog {s : State} (e : State) (h : s.regs.mode = .prog) :
    s.inRun e = s.nop := by simp [State.inRun, h]

/-- A toggle is accepted and writes the registers, or is discarded and writes nothing. -/
theorem State.debounced_cases (s : State) (t : Nat) (r : Regs) :
    (debounceUs < elapsed s.cfg t s.regs.lastTs ∧ s.debounced t r = s.setRegs r) ∨
    (elapsed s.cfg t s.regs.lastTs ≤ debounceUs ∧ s.debounced t r = s.nop) := by
  unfold State.debounced
  by_cases h : debounceUs < elapsed s.cfg t s.regs.lastTs
  · exact .inl ⟨h, if_pos ((accepted_iff _ _ _).2 h)⟩
  · exact .inr ⟨Nat.le_of_not_lt h, if_neg (mt (accepted_iff _ _ _).1 h)⟩

/-- The gate is open and the level is strobed and held, or it is closed and nothing is written;
the result is shown either way. -/
theorem State.emit_cases (s : State) (axis : Axis) (r : Reading) :
    (s.regs.pwmEn = true ∧ s.emit axis r =
      { s with
        regs := s.regs.setDuty axis r.levelBits
        out := { res := some (r.result axis)
                 pwm := some { axis := axis, level := r.levelBits } } }) ∨
    (s.regs.pwmEn = false ∧
      s.emit axis r = { s with out := { res := some (r.result axis), pwm := none } }) := by
  unfold State.emit Regs.gateOpen
  cases s.regs.pwmEn <;> simp

/-! ## The meanings -/

/-- EV_NONE is a `nop`. -/
theorem execEvNone_eq (t : Nat) (s : State) : execEvNone t s = .next s.nop := rfl

/-- EV_PROG enters programming mode, or is a `nop` in PROG. -/
theorem execEvProg_cases (t : Nat) (s : State) :
    (s.regs.mode = .run ∧ execEvProg t s = .next s.enterProg) ∨
    (s.regs.mode = .prog ∧ execEvProg t s = .next s.nop) := by
  unfold execEvProg
  rcases s.inRun_cases s.enterProg with ⟨h, -⟩ | ⟨h, -⟩ <;> simp [h]

/-- EV_LED is accepted in RUN, or changes nothing. -/
theorem execEvLed_cases (t : Nat) (s : State) :
    (s.regs.mode = .run ∧ debounceUs < elapsed s.cfg t s.regs.lastTs ∧
      execEvLed t s = .next (s.setRegs (s.regs.acceptLed (portTime s.cfg t)))) ∨
    ((s.regs.mode = .prog ∨ elapsed s.cfg t s.regs.lastTs ≤ debounceUs) ∧
      execEvLed t s = .next s.nop) := by
  unfold execEvLed
  rcases s.inRun_cases (s.debounced t (s.regs.acceptLed (portTime s.cfg t))) with ⟨h, e⟩ | ⟨h, e⟩
  · rw [e]
    rcases s.debounced_cases t (s.regs.acceptLed (portTime s.cfg t)) with ⟨h', e'⟩ | ⟨h', e'⟩
    · exact .inl ⟨h, h', by rw [e']⟩
    · exact .inr ⟨.inr h', by rw [e']⟩
  · exact .inr ⟨.inl h, by rw [e]⟩

/-- EV_PWM is accepted in RUN, or changes nothing. -/
theorem execEvPwm_cases (t : Nat) (s : State) :
    (s.regs.mode = .run ∧ debounceUs < elapsed s.cfg t s.regs.lastTs ∧
      execEvPwm t s = .next (s.setRegs (s.regs.acceptPwm (portTime s.cfg t)))) ∨
    ((s.regs.mode = .prog ∨ elapsed s.cfg t s.regs.lastTs ≤ debounceUs) ∧
      execEvPwm t s = .next s.nop) := by
  unfold execEvPwm
  rcases s.inRun_cases (s.debounced t (s.regs.acceptPwm (portTime s.cfg t))) with ⟨h, e⟩ | ⟨h, e⟩
  · rw [e]
    rcases s.debounced_cases t (s.regs.acceptPwm (portTime s.cfg t)) with ⟨h', e'⟩ | ⟨h', e'⟩
    · exact .inl ⟨h, h', by rw [e']⟩
    · exact .inr ⟨.inr h', by rw [e']⟩
  · exact .inr ⟨.inl h, by rw [e]⟩

/-- A sample operation shows its reading in RUN and passes it through the gate, or is a `nop`. -/
theorem State.sample_cases (s : State) (axis : Axis) (raw : Sample) :
    (s.regs.mode = .run ∧ s.sample axis raw = s.emit axis (mapSample s.cfg axis raw)) ∨
    (s.regs.mode = .prog ∧ s.sample axis raw = s.nop) :=
  s.inRun_cases _

/-- SMP_H is a sample operation of the horizontal axis. -/
theorem execSmpH_eq (raw : Sample) (s : State) :
    execSmpH raw s = .next (s.sample .horizontal raw) := rfl

/-- SMP_V is a sample operation of the vertical axis. -/
theorem execSmpV_eq (raw : Sample) (s : State) :
    execSmpV raw s = .next (s.sample .vertical raw) := rfl

/-- RESET writes every register. -/
theorem execReset_eq (s : State) : execReset s = .next (s.setRegs (Regs.afterReset s.cfg)) := rfl

/-! ## The cycle -/

/-- Everything a step can do: an idle cycle, the one operation presented, or a sample and then an
event. -/
theorem step_cases (s : State) :
    (s.nextOps = .idle ∧ step s = .next s.advance.nop) ∨
    (∃ i, s.nextOps = .one i ∧ step s = exec i s.advance) ∨
    (∃ smp ev, s.nextOps = .both smp ev ∧
      step s = match exec smp s.advance with
        | .next s₁ =>
          match exec ev s₁ with
          | .next s₂ => .next (s₂.withOutputsOf s₁)
          | .fault r => .fault r
          | .refused r => .refused r
        | .fault r => .fault r
        | .refused r => .refused r) := by
  unfold step
  cases h : s.nextOps with
  | idle => exact .inl ⟨rfl, rfl⟩
  | one i => exact .inr (.inl ⟨i, rfl, rfl⟩)
  | both smp ev => exact .inr (.inr ⟨smp, ev, rfl, rfl⟩)

/-- The decoding of a cycle, by its valid bits. -/
theorem InputPorts.ops_cases (p : InputPorts) (tsw : Nat) :
    (p.rst = true ∧ p.ops tsw = .one .reset) ∨
    (p.rst = false ∧ p.smpValid = false ∧ p.evValid = false ∧ p.ops tsw = .idle) ∨
    (p.rst = false ∧ p.smpValid = true ∧ p.evValid = false ∧
      p.ops tsw = .one (decodeSmp p.smpWord)) ∨
    (p.rst = false ∧ p.smpValid = false ∧ p.evValid = true ∧
      p.ops tsw = .one (decodeEv tsw (p.evWord tsw))) ∨
    (p.rst = false ∧ p.smpValid = true ∧ p.evValid = true ∧
      p.ops tsw = .both (decodeSmp p.smpWord) (decodeEv tsw (p.evWord tsw))) := by
  unfold InputPorts.ops
  cases p.rst <;> cases p.smpValid <;> cases p.evValid <;> simp

end Sys2Proof.Machine
end

