-- ==== Sys2Proof/Laws/PerInstr.lean ====
section
/-!
SUPPORT. Statements about every operation as syntax, one lemma a constructor of Instr.
-/

/-- The word of the operation is one of the words its row of spec/opcode_table.json selects (R58;
the table stands at TSW = 64). -/
def Sys2Proof.Laws.EncodesToItsTableRow.Statement (i : Sys2Proof.Instr) : Prop :=
  (Sys2Proof.tableRow i).selects (Sys2Proof.encode 64 i)

namespace Sys2Proof.Laws.EncodesToItsTableRow

/-- The source code of an event word stands above its 64-bit timestamp. -/
theorem srcMask_encodeEv (src : EvSource) (t : Nat) :
    (encodeEv 64 src t).toNat &&& 0x30000000000000000 = src.bits.toNat * 2 ^ 64 := by
  have hlt : t % 2 ^ 64 < 2 ^ 64 := Nat.mod_lt _ (by decide)
  rw [encodeEv_toNat, show (0x30000000000000000 : Nat) = 3 * 2 ^ 64 by decide, Nat.mul_comm]
  rw [Nat.two_pow_add_eq_or_of_lt hlt, Nat.and_or_distrib_right]
  have hz : t % 2 ^ 64 &&& 3 * 2 ^ 64 = 0 := by
    apply Nat.eq_of_testBit_eq
    intro k
    rw [Nat.testBit_and, Nat.zero_testBit]
    by_cases hk : k < 64
    · rw [Nat.mul_comm, Nat.testBit_two_pow_mul]; simp [Nat.not_le.2 hk]
    · rw [Nat.testBit_lt_two_pow (lt_of_lt_of_le hlt (Nat.pow_le_pow_right (by decide) (by omega)))]
      rfl
  rw [hz, Nat.or_zero]
  cases src <;> decide

theorem evNone (t : Nat) : Statement (.evNone t) := ⟨rfl, srcMask_encodeEv .none t⟩

theorem evProg (t : Nat) : Statement (.evProg t) := ⟨rfl, srcMask_encodeEv .prog t⟩

theorem evLed (t : Nat) : Statement (.evLed t) := ⟨rfl, srcMask_encodeEv .led t⟩

theorem evPwm (t : Nat) : Statement (.evPwm t) := ⟨rfl, srcMask_encodeEv .pwm t⟩

/-- The axis bit of a sample word stands above its 12-bit sample. -/
theorem axisMask_encodeSmp (a : Axis) (raw : Sample) :
    (encodeSmp a raw).toNat &&& 0x1000 = a.bit.toNat * 0x1000 := by
  rw [encodeSmp_toNat, Nat.mul_comm, show (4096 : Nat) = 2 ^ 12 by decide,
    Nat.two_pow_add_eq_or_of_lt raw.isLt, Nat.and_or_distrib_right]
  have hz : raw.toNat &&& 2 ^ 12 = 0 := by
    apply Nat.eq_of_testBit_eq
    intro k
    rw [Nat.testBit_and, Nat.zero_testBit, Nat.testBit_two_pow]
    by_cases hk : 12 = k
    · rw [← hk, Nat.testBit_lt_two_pow raw.isLt]; rfl
    · simp [hk]
  rw [hz, Nat.or_zero]
  cases a <;> decide

theorem smpH (raw : Sample) : Statement (.smpH raw) := ⟨rfl, axisMask_encodeSmp .horizontal raw⟩

theorem smpV (raw : Sample) : Statement (.smpV raw) := ⟨rfl, axisMask_encodeSmp .vertical raw⟩

theorem reset : Statement .reset := ⟨rfl, rfl⟩

end Sys2Proof.Laws.EncodesToItsTableRow
end

