-- ==== Sys2Proof/Tests/Slice0.lean ====
section
/-!
SUPPORT. The model's own tests: expected values are those of spec/95_test_vectors.md (each test
names its vector) and of the rules' own examples; and, for each statement with hypotheses, a
concrete case that meets them.
-/

namespace Sys2Proof.Tests

open Sys2Proof.Machine

/-! ## Small states -/

/-- The state (last_ts, led_on, pwm_en, mode, duty_h, duty_v) of the vectors, at the default
parameters, after a cycle with no strobe. -/
def st (lastTs : Nat) (ledOn pwmEn : Bool) (mode : Mode) (dutyH dutyV : Level) : State :=
  { State.reset with regs := ⟨lastTs, ledOn, pwmEn, mode, dutyH, dutyV⟩ }

/-- The state with a result shown and, where `wr` is true, its level strobed. -/
def shows (s : State) (axis : Axis) (level : Level) (off : Offset) (wr : Bool) : State :=
  { s with out :=
      { res := some ⟨axis, level, off⟩, pwm := if wr then some ⟨axis, level⟩ else none } }

/-- The next state of an outcome, if it is one. -/
def nextOf (o : Host.Outcome State Fault Refusal) : Option State :=
  match o with
  | .next t => some t
  | .fault _ => none
  | .refused _ => none

/-- S0, the post-reset state (R160). -/
def s0 : State := st 0 false true .run 0#13 0#13

/-- The block at the parameters of R6 with the alternative vertical divisors. -/
def swapped : Config := { Config.default with vDivs := .swapped }

/-- The block with timestamps of 18 bits. -/
def narrow : Config := { Config.default with tsw := 18, tsw_legal := by decide }

/-- The ports of a cycle with `rst` = 0. -/
def cyc (ev : Option (BitVec 2 × Nat)) (smp : Option (BitVec 1 × Sample)) : InputPorts where
  rst := false
  evValid := ev.isSome
  evSrc := (ev.getD (0#2, 0)).1
  evTime := (ev.getD (0#2, 0)).2
  smpValid := smp.isSome
  smpAxis := (smp.getD (0#1, 0#12)).1
  smpRaw := (smp.getD (0#1, 0#12)).2

/-! ## Ill-formed terms are refused -/

theorem test_wellFormed_refuses_evNone : (Instr.evNone (2 ^ 64)).wellFormed 64 = false := by decide
theorem test_wellFormed_refuses_evProg : (Instr.evProg (2 ^ 64)).wellFormed 64 = false := by decide
theorem test_wellFormed_refuses_evLed : (Instr.evLed (2 ^ 64)).wellFormed 64 = false := by decide
theorem test_wellFormed_refuses_evPwm : (Instr.evPwm (2 ^ 18)).wellFormed 18 = false := by decide
theorem test_wellFormed_accepts_largest : (Instr.evPwm (2 ^ 64 - 1)).wellFormed 64 = true := by
  decide

/-- U16: a timestamp narrower than 18 bits. -/
theorem test_config_refuses_tsw_17 :
    RawConfig.build ⟨17, 1988, 2100, false, true, false⟩ = .error (.timestampTooNarrow 17) := rfl

/-- U17: divisors that are no legal pair. -/
theorem test_config_refuses_equal_divisors :
    RawConfig.build ⟨64, 2100, 2100, false, true, false⟩ = .error (.illegalDivisors 2100 2100) :=
  rfl

/-- R6: the defaults are legal. -/
theorem test_config_accepts_defaults :
    RawConfig.build ⟨64, 1988, 2100, false, true, false⟩ = .ok Config.default := rfl

/-- R6: the alternative assignment is legal. -/
theorem test_config_accepts_swapped :
    RawConfig.build ⟨64, 2100, 1988, false, true, false⟩ = .ok swapped := rfl

/-! ## Decoding, from words the spec writes down -/

/-- D-11. -/
theorem test_decode_evNone : decodeTableWord 66 0x000000000000F423F = some (.evNone 999999) := by
  decide
/-- D-12. -/
theorem test_decode_evProg : decodeTableWord 66 0x1000000000007A121 = some (.evProg 500001) := by
  decide
/-- R62. -/
theorem test_decode_evLed : decodeTableWord 66 0x2000000000003D090 = some (.evLed 250000) := by
  decide
/-- D-8. -/
theorem test_decode_evPwm : decodeTableWord 66 0x3000000000006DDD1 = some (.evPwm 450001) := by
  decide
/-- H-17. -/
theorem test_decode_smpH : decodeTableWord 13 0x0BE4 = some (.smpH 3044#12) := by decide
/-- R62. -/
theorem test_decode_smpV : decodeTableWord 13 0x1834 = some (.smpV 2100#12) := by decide
/-- R55. -/
theorem test_decode_reset : decodeTableWord 1 1 = some .reset := by decide
/-- The same words in whole bytes, every field all ones. -/
theorem test_decode_whole_bytes :
    decodeTableWord 72 0x3FFFFFFFFFFFFFFFF = some (.evPwm (2 ^ 64 - 1)) ∧
    decodeTableWord 16 0x1FFF = some (.smpV 4095#12) ∧ decodeTableWord 8 1 = some .reset := by
  decide
/-- D-20: the 20-bit word of EV_LED 262143 at TSW = 18. -/
theorem test_decode_narrow : decode 18 (.ev 0xBFFFF#20) = .ok (.evLed 262143) := rfl
/-- R55: `rst` = 0 is no operation. -/
theorem test_decode_refuses_rst_0 : decodeTable 1 0 = .error .resetNotAsserted := rfl
theorem test_decode_refuses_width : decodeTable 32 1 = .error (.noSuchWidth 32) := rfl
theorem test_decode_refuses_high_bits :
    decodeTable 72 0x400000000000000000 = .error (.bitsAboveWord 72 0x400000000000000000) ∧
    decodeTable 16 0x2000 = .error (.bitsAboveWord 16 0x2000) ∧
    decodeTable 8 2 = .error (.bitsAboveWord 8 2) := ⟨rfl, rfl, rfl⟩

/-! ## One operation, one step -/

/-- D-11. -/
theorem test_evNone : nextOf (exec (.evNone 999999) s0) = some s0 := by decide
/-- D-12. -/
theorem test_evProg : nextOf (exec (.evProg 500001) (st 500000 true false .run 0#13 0#13)) =
    some (st 500000 true false .prog 0#13 0#13) := by decide
/-- D-13. -/
theorem test_evProg_at_zero :
    nextOf (exec (.evProg 0) s0) = some (st 0 false true .prog 0#13 0#13) := by decide
/-- D-18: the boundary across a wrap of the 64-bit timebase is discarded. -/
theorem test_evLed_boundary :
    nextOf (exec (.evLed 199900) (st (2 ^ 64 - 100) false true .run 0#13 0#13)) =
      some (st (2 ^ 64 - 100) false true .run 0#13 0#13) := by decide
/-- D-15: a timestamp that went backwards is accepted. -/
theorem test_evLed_backward : nextOf (exec (.evLed 400000) (st 500000 false true .run 0#13 0#13)) =
    some (st 400000 true true .run 0#13 0#13) := by decide
/-- D-8. -/
theorem test_evPwm : nextOf (exec (.evPwm 450001) (st 250000 true true .run 5#13 6#13)) =
    some (st 450001 true false .run 5#13 6#13) := by decide
/-- D-9: the other source's last toggle opens the window. -/
theorem test_evPwm_cross_source :
    nextOf (exec (.evPwm 300000) (st 250000 true true .run 0#13 0#13)) =
      some (st 250000 true true .run 0#13 0#13) := by decide
/-- H-8, gate open: the offset steps down as soon as the fraction leaves 0. -/
theorem test_smpH : nextOf (exec (.smpH 1899#12) s0) =
    some (shows (st 0 false true .run 2#13 0#13) .horizontal 2#13 59#7 true) := by decide
/-- G-2: the gate is closed. -/
theorem test_smpH_gate_closed :
    nextOf (exec (.smpH 950#12) (st 300000 false false .run 2048#13 2048#13)) =
      some (shows (st 300000 false false .run 2048#13 2048#13) .horizontal 2048#13 30#7 false) := by
  decide
/-- V-12, gate open, with a level in the other axis's register (as G-7). -/
theorem test_smpV : nextOf (exec (.smpV 2167#12) (st 0 false true .run 1024#13 7#13)) =
    some (shows (st 0 false true .run 1024#13 138#13) .vertical 138#13 28#7 true) := by decide
/-- VA-3: the clamp at the alternative divisors. -/
theorem test_smpV_swapped : nextOf (exec (.smpV 111#12) (State.resetWith swapped)) =
    some (shows { State.resetWith swapped with regs := ⟨0, false, true, .run, 0#13, 4096#13⟩ }
      .vertical 4096#13 60#7 true) := by decide
/-- X-1. -/
theorem test_reset : nextOf (exec .reset (st 450001 true false .prog 2048#13 17#13)) = some s0 := by
  decide
/-- X-3. -/
theorem test_reset_parameters :
    let c := { Config.default with rstLedOn := true, rstPwmEn := false }
    nextOf (exec .reset { s0 with cfg := c }) =
      some { s0 with cfg := c, regs := ⟨0, true, false, .run, 0#13, 0#13⟩ } := by decide
/-- B-2: the sample sees the gate closed, the event opens it. -/
theorem test_step_both : nextOf (step { st 300000 false false .run 1024#13 0#13 with
      inputs := [presentBoth (present 64 (.smpH 3566#12)) (present 64 (.evPwm 600000))] }) =
    some (shows (st 600000 false true .run 1024#13 0#13) .horizontal 3072#13 105#7 false) := by
  decide
/-- B-3: the sample runs in RUN, then `mode` becomes PROG. -/
theorem test_step_both_prog : nextOf (step { st 600000 false true .run 4096#13 0#13 with
      inputs := [presentBoth (present 64 (.smpV 3094#12)) (present 64 (.evProg 600001))] }) =
    some (shows (st 600000 false true .prog 4096#13 2048#13) .vertical 2048#13 15#7 true) := by
  decide
/-- X-2: `rst` overrides both ports. -/
theorem test_step_reset_priority : nextOf (step { st 1 true false .prog 7#13 8#13 with
      inputs := [{ cyc (some (2#2, 999999)) (some (0#1, 0#12)) with rst := true }] }) = some s0 := by
  decide
/-- A table word put in front of what is to be presented is what the next step runs (V-13). -/
theorem test_step_runs_fetch_word : nextOf (step (State.reset.withFetchWord 16 0x1A25)) =
    some (shows (st 0 false true .run 0#13 1024#13) .vertical 1024#13 22#7 true) := by decide
theorem test_step_runs_fetch_event :
    nextOf (step (State.reset.withFetchWord 72 0x20000000000030D41)) =
      some (st 200001 true true .run 0#13 0#13) := by decide

/-! ## Each statement's hypotheses are met -/

/-- A timestamp at each end of its range, a sample, and RESET. -/
theorem witness_DecodeInvertsEncode :
    (Instr.evLed (2 ^ 64 - 1)).wellFormed 64 = true ∧ (Instr.evPwm 0).wellFormed 18 = true ∧
    (Instr.smpV 4095#12).wellFormed 64 = true ∧ Instr.reset.wellFormed 64 = true := by decide

/-- A word of each format decodes. -/
theorem witness_EncodeInvertsDecode :
    decode 64 (.ev 0x3FFFFFFFFFFFFFFFF#66) = .ok (.evPwm (2 ^ 64 - 1)) ∧
    decode 64 (.smp 0x1FFF#13) = .ok (.smpV 4095#12) ∧ decode 64 (.pin 1#1) = .ok .reset :=
  ⟨rfl, rfl, rfl⟩

theorem witness_EventWordLayout :
    2 ^ 64 - 1 < 2 ^ 64 ∧ 0 < 2 ^ 64 ∧ 262143 < 2 ^ 18 := by decide

theorem witness_SampleWordLayout : 0 < 4096 ∧ 4095 < 4096 := by decide

/-- The largest word whose code is 00, at TSW = 64. -/
theorem witness_NoIllegalEncoding :
    (0x0FFFFFFFFFFFFFFFF#66 : BitVec (2 + 64)).toNat / 2 ^ 64 = 0 := by decide

theorem witness_OnlyLegalConfigurationsBuild :
    RawConfig.build ⟨18, 1988, 2100, true, false, true⟩ =
      .ok { narrow with rstLedOn := true, rstPwmEn := false, invertConst := true } ∧
    RawConfig.build ⟨64, 2100, 1988, false, true, false⟩ = .ok swapped := ⟨rfl, rfl⟩

/-- The ports of an event, of a sample and of RESET, each with the word they present. -/
theorem witness_StepRunsTheDecodedOperation :
    { s0 with inputs := [cyc (some (2#2, 250000)) none] }.inputs =
      cyc (some (2#2, 250000)) none :: [] ∧
    (cyc (some (2#2, 250000)) none).presentsWord (.ev 0x2000000000003D090#66 : OpWord 64) ∧
    decode 64 (.ev 0x2000000000003D090#66) = .ok (.evLed 250000) ∧
    (cyc none (some (1#1, 4095#12))).presentsWord (.smp 0x1FFF#13 : OpWord 64) ∧
    decode 64 (.smp 0x1FFF#13) = .ok (.smpV 4095#12) ∧
    { idlePorts with rst := true }.presentsWord (.pin 1#1 : OpWord 64) ∧
    decode 64 (.pin 1#1) = .ok .reset :=
  ⟨rfl, ⟨rfl, rfl, rfl, by decide⟩, rfl, ⟨rfl, rfl, rfl, by decide⟩, rfl, ⟨rfl, rfl⟩, rfl⟩

theorem witness_TraceLineRunsItsOperation :
    (Instr.evLed (2 ^ 64 - 1)).wellFormed s0.cfg.tsw = true := by decide

/-- One cycle of each of the five kinds. -/
theorem witness_CompleteCycleMap :
    { s0 with inputs := [idlePorts] }.inputs = idlePorts :: [] ∧
    { cyc (some (2#2, 1)) (some (0#1, 5#12)) with rst := true }.rst = true ∧
    (idlePorts.rst = false ∧ idlePorts.smpValid = false ∧ idlePorts.evValid = false) ∧
    ((cyc none (some (0#1, 5#12))).rst = false ∧ (cyc none (some (0#1, 5#12))).smpValid = true ∧
      (cyc none (some (0#1, 5#12))).evValid = false) ∧
    ((cyc (some (3#2, 1)) none).rst = false ∧ (cyc (some (3#2, 1)) none).smpValid = false ∧
      (cyc (some (3#2, 1)) none).evValid = true) ∧
    ((cyc (some (3#2, 1)) (some (1#1, 5#12))).rst = false ∧
      (cyc (some (3#2, 1)) (some (1#1, 5#12))).smpValid = true ∧
      (cyc (some (3#2, 1)) (some (1#1, 5#12))).evValid = true) := by decide

theorem witness_NothingPresentedChangesNothing : s0.inputs = [] := by decide

/-- A cycle whose event closes the gate under the sample (B-1), in RUN. -/
theorem witness_SameCycleSampleAndEvent :
    { s0 with inputs := [cyc (some (3#2, 300000)) (some (0#1, 2522#12))] }.inputs =
      cyc (some (3#2, 300000)) (some (0#1, 2522#12)) :: [] ∧
    (cyc (some (3#2, 300000)) (some (0#1, 2522#12))).rst = false ∧
    (cyc (some (3#2, 300000)) (some (0#1, 2522#12))).smpValid = true ∧
    (cyc (some (3#2, 300000)) (some (0#1, 2522#12))).evValid = true ∧
    s0.regs.mode = .run := by decide

/-- RESET with both other ports valid (X-2). -/
theorem witness_ResetOverridesThePorts :
    let p := { cyc (some (2#2, 999999)) (some (0#1, 0#12)) with rst := true }
    { s0 with inputs := [p] }.inputs = p :: [] ∧ p.rst = true := by decide

/-- Two states that differ in what follows the coming cycle and in the outputs. -/
theorem witness_StepHasNoHiddenState :
    let p := cyc (some (2#2, 250000)) none
    let a := { s0 with inputs := [p] }
    let b := { shows s0 .vertical 1#13 2#7 true with inputs := [p, idlePorts] }
    a.cfg = b.cfg ∧ a.regs = b.regs ∧ a.inputs.head? = b.inputs.head? ∧ a ≠ b := by decide

/-- The largest word whose code is 00, at TSW = 18. -/
theorem witness_EvNoneIsNop : (0x3FFFF#20 : BitVec (2 + 18)).toNat / 2 ^ 18 = 0 := by decide

/-- A word of code 01; states in RUN and in PROG; a run without RESET; EV_PROG beside a sample. -/
theorem witness_EvProgEntersProgrammingMode :
    (0x1000000000007A121#66 : BitVec (2 + 64)).toNat / 2 ^ 64 = 1 ∧
    s0.regs.mode = .run ∧ (st 0 false true .prog 0#13 0#13).regs.mode = .prog ∧
    (∀ p ∈ [cyc (some (2#2, 999999)) none, idlePorts], p.rst = false) ∧
    { s0 with inputs := [cyc (some (1#2, 0)) (some (1#1, 0#12))] }.inputs =
      cyc (some (1#2, 0)) (some (1#1, 0#12)) :: [] ∧
    (cyc (some (1#2, 0)) (some (1#1, 0#12))).rst = false ∧
    (cyc (some (1#2, 0)) (some (1#1, 0#12))).smpValid = true ∧
    (cyc (some (1#2, 0)) (some (1#1, 0#12))).evValid = true ∧
    (cyc (some (1#2, 0)) (some (1#1, 0#12))).evSrc = 0b01#2 := by decide

/-- A word of code 10; the elapsed times on each side of the boundary (D-2, D-3), and PROG. -/
theorem witness_EvLedTogglesDebounced :
    (0x2FFFFFFFFFFFFFFFF#66 : BitVec (2 + 64)).toNat / 2 ^ 64 = 2 ∧
    200001 < 2 ^ s0.cfg.tsw ∧ s0.regs.lastTs < 2 ^ s0.cfg.tsw ∧ s0.regs.mode = .run ∧
    200000 < elapsedInt s0.cfg 200001 s0.regs.lastTs ∧
    elapsedInt s0.cfg 200000 s0.regs.lastTs ≤ 200000 ∧
    (st 0 false true .prog 0#13 0#13).regs.mode = .prog := by decide

/-- A word of code 11; elapsed times on each side of the boundary across a wrap (D-17, D-18). -/
theorem witness_EvPwmTogglesDebounced :
    let s := st (2 ^ 64 - 100) false true .run 0#13 0#13
    (0x30000000000000000#66 : BitVec (2 + 64)).toNat / 2 ^ 64 = 3 ∧
    199901 < 2 ^ s.cfg.tsw ∧ s.regs.lastTs < 2 ^ s.cfg.tsw ∧ s.regs.mode = .run ∧
    200000 < elapsedInt s.cfg 199901 s.regs.lastTs ∧
    elapsedInt s.cfg 199900 s.regs.lastTs ≤ 200000 ∧
    (st 0 false true .prog 0#13 0#13).regs.mode = .prog := by decide

/-- Each operation answers a next state. -/
theorem witness_OperationsWriteOnlyTheirRegisters :
    nextOf (exec (.evNone 1) s0) ≠ none ∧ nextOf (exec (.evProg 1) s0) ≠ none ∧
    nextOf (exec (.evLed 200001) s0) ≠ none ∧ nextOf (exec (.evPwm 200001) s0) ≠ none ∧
    nextOf (exec (.smpH 0#12) s0) ≠ none ∧ nextOf (exec (.smpV 0#12) s0) ≠ none ∧
    nextOf (exec .reset s0) ≠ none := by decide

/-- States equal in what EV_LED, EV_PWM and the samples may read and different elsewhere, with the
next states the operations answer. -/
theorem witness_OperationsReadOnlyTheirRegisters :
    let a := s0
    let b := st 0 false true .run 9#13 9#13
    a.cfg = b.cfg ∧ a.regs.mode = b.regs.mode ∧ a.regs.lastTs = b.regs.lastTs ∧
    a.regs.ledOn = b.regs.ledOn ∧ a.regs.pwmEn = b.regs.pwmEn ∧ a ≠ b ∧
    nextOf (exec (.evLed 200001) a) = some (st 200001 true true .run 0#13 0#13) ∧
    nextOf (exec (.evLed 200001) b) = some (st 200001 true true .run 9#13 9#13) ∧
    nextOf (exec (.evPwm 200001) a) = some (st 200001 false false .run 0#13 0#13) ∧
    nextOf (exec (.evPwm 200001) b) = some (st 200001 false false .run 9#13 9#13) ∧
    nextOf (exec (.evProg 0) a) = some (st 0 false true .prog 0#13 0#13) ∧
    nextOf (exec (.evProg 0) b) = some (st 0 false true .prog 9#13 9#13) ∧
    nextOf (exec .reset b) = nextOf (exec .reset a) ∧
    nextOf (exec (.smpH 0#12) b) =
      some (shows (st 0 false true .run 4096#13 9#13) .horizontal 4096#13 0#7 true) := by decide

/-- The largest TSW-bit timestamps; equal, later and earlier ones. -/
theorem witness_DebounceTest :
    2 ^ 64 - 1 < 2 ^ Config.default.tsw ∧ 7 ≤ 7 ∧ 7 < 2 ^ 64 - 1 ∧
    accepted Config.default 200000 0 = false ∧ accepted Config.default 200001 0 = true := by decide

/-- The last `last_ts` at which the boundary does not wrap. -/
theorem witness_WindowBoundaryIsDiscarded :
    let s := st (2 ^ 64 - 200002) false true .run 0#13 0#13
    s.regs.mode = .run ∧ s.regs.lastTs + 200001 < 2 ^ s.cfg.tsw := by decide

theorem witness_BounceDoesNotExtendTheWindow :
    let s := st 300000 true true .run 0#13 0#13
    s.regs.mode = .run ∧ 500000 < 2 ^ s.cfg.tsw ∧ s.regs.lastTs < 2 ^ s.cfg.tsw ∧
    elapsedInt s.cfg 500000 s.regs.lastTs ≤ 200000 ∧ s.regs.lastTs + 300000 < 2 ^ s.cfg.tsw := by
  decide

theorem witness_CrossSourceSuppression :
    s0.regs.mode = .run ∧ s0.regs.lastTs < 2 ^ s0.cfg.tsw ∧ 250000 < 2 ^ s0.cfg.tsw ∧
    200000 < elapsedInt s0.cfg 250000 s0.regs.lastTs ∧ 250000 ≤ 450000 ∧
    450000 ≤ 250000 + 200000 ∧ 450000 < 2 ^ s0.cfg.tsw := by decide

/-- A run with accepted and discarded toggles, one of them beside a sample, that accepts two. -/
theorem witness_CountingLaw :
    let ps := [cyc (some (2#2, 200001)) none, cyc (some (3#2, 400001)) (some (0#1, 0#12)),
      cyc (some (3#2, 400002)) none]
    s0.regs = Regs.afterReset s0.cfg ∧ (∀ p ∈ ps, p.rst = false) ∧
    (∀ t ∈ toggleTimes ps, t < 2 ^ s0.cfg.tsw) ∧ (toggleTimes ps).Pairwise (· ≤ ·) ∧
    (∀ p ∈ ps, p.togglePresented = true) ∧ (∀ c ∈ runOf s0 ps, c.1.regs.mode = .run) ∧
    acceptedTimes (runOf s0 ps) = [200001, 400002] := by decide

theorem witness_PostResetWindow :
    s0.regs = Regs.afterReset s0.cfg ∧ 200000 < 2 ^ s0.cfg.tsw ∧ 200000 ≤ 200000 ∧
    200001 < 2 ^ s0.cfg.tsw ∧ 200001 ≤ 200001 := by decide

/-- Elapsed times inside the window, beyond it, and aliased by one whole wrap, at TSW = 18. -/
theorem witness_TimestampWrap :
    let s := { State.resetWith narrow with regs := ⟨262143, true, true, .run, 0#13, 0#13⟩ }
    s.regs.mode = .run ∧ s.regs.lastTs < 2 ^ s.cfg.tsw ∧
    200000 < 2 ^ s.cfg.tsw ∧ 200001 < 2 ^ s.cfg.tsw ∧
    1 ≤ 1 ∧ 200000 ≤ 200000 ∧ 462144 = 1 * 2 ^ s.cfg.tsw + 200000 := by decide

/-- The last step back that is accepted and the first that is discarded, at TSW = 64; D-15. -/
theorem witness_BackwardTimestamp :
    let s := st (2 ^ 64 - 1) false true .run 0#13 0#13
    s.regs.mode = .run ∧ s.regs.lastTs < 2 ^ s.cfg.tsw ∧
    200000 < s.regs.lastTs ∧ s.regs.lastTs - 200000 < 2 ^ s.cfg.tsw - 200000 ∧
    199999 < s.regs.lastTs ∧ 2 ^ s.cfg.tsw - 200000 ≤ s.regs.lastTs - 199999 ∧
    (st 500000 false true .run 0#13 0#13).cfg.tsw = 64 ∧
    (st 500000 false true .run 0#13 0#13).regs.mode = .run ∧
    (st 500000 false true .run 0#13 0#13).regs.lastTs = 500000 := by decide

theorem witness_TwoAcceptedTogglesRestoreTheFlags :
    let u := st 250000 true true .run 0#13 0#13
    let v := st 500000 false true .run 0#13 0#13
    nextOf (exec (.evLed 250000) s0) = some u ∧ toggledIn (s0, u) = true ∧
    nextOf (exec (.evLed 500000) u) = some v ∧ toggledIn (u, v) = true := by decide

theorem witness_SecondPresentationChangesNothing :
    nextOf (exec (.evPwm 250000) s0) = some (st 250000 false false .run 0#13 0#13) ∧
    nextOf (exec (.smpH 1425#12) s0) =
      some (shows (st 0 false true .run 1024#13 0#13) .horizontal 1024#13 45#7 true) ∧
    nextOf (exec (.smpV 2030#12) s0) =
      some (shows (st 0 false true .run 0#13 136#13) .vertical 136#13 31#7 true) := by decide

/-- Samples at the ends of the three horizontal branches; a state in which one is gated. -/
theorem witness_HorizontalMapper :
    2000 < (2001#12).toNat ∧ 2000 < (4095#12).toNat ∧ (1899#12).toNat < 1900 ∧
    (0#12).toNat < 1900 ∧ (1900 ≤ (1900#12).toNat ∧ (1900#12).toNat ≤ 2000) ∧
    (1900 ≤ (2000#12).toNat ∧ (2000#12).toNat ≤ 2000) ∧ s0.regs.mode = .run ∧
    s0.regs.pwmEn = true ∧ (st 0 false false .run 0#13 0#13).regs.pwmEn = false := by decide

/-- Samples at the ends of the two vertical branches, under both divisor assignments. -/
theorem witness_VerticalMapper :
    2100 < (2101#12).toNat ∧ 2100 < (4095#12).toNat ∧ (2100#12).toNat ≤ 2100 ∧
    (0#12).toNat ≤ 2100 ∧ Config.default.vDivs = .listed ∧ swapped.vDivs = .swapped := by decide

/-- A sample in every branch, and those next to the clamp's first. -/
theorem witness_ClampBoundsTheMapper :
    (mapSample swapped .horizontal 4088#12).branch = .hAbove ∧
    (mapSample swapped .horizontal 0#12).branch = .hBelow ∧
    (mapSample swapped .horizontal 2000#12).branch = .hDead ∧
    (mapSample swapped .vertical 4089#12).branch = .vAbove ∧
    (mapSample swapped .vertical 2100#12).branch = .vBelow ∧
    (mapSample swapped .vertical 2100#12).d = some 1988 ∧ Config.default.vDivs = .listed ∧
    2000 < (4088#12).toNat ∧ 2100 < (4088#12).toNat ∧ (4088#12).toNat < 4089 ∧
    4089 ≤ (4089#12).toNat ∧ (1899#12).toNat < 1900 ∧ (2100#12).toNat ≤ 2100 := by decide

/-- A reading with a divisor at full scale, and one without. -/
theorem witness_LevelLaw :
    mapSample swapped .vertical 111#12 = ⟨.vBelow, 1988, some 1988, 4096, 60⟩ ∧
    mapSample Config.default .horizontal 1900#12 = ⟨.hDead, 0, none, 0, 60⟩ := by decide

/-- A reading in each branch with a divisor. -/
theorem witness_OffsetIsTheFloorOfTheWhole :
    let H := mapSample Config.default .horizontal
    let V := mapSample Config.default .vertical
    ((H 2035#12).branch = .hAbove ∧ (H 2035#12).d = some 2088) ∧
    ((H 1868#12).branch = .hBelow ∧ (H 1868#12).d = some 1900) ∧
    ((V 2167#12).branch = .vAbove ∧ (V 2167#12).d = some 1988) ∧
    ((V 2030#12).branch = .vBelow ∧ (V 2030#12).d = some 2100) := by decide

/-- The samples with the largest intermediate values of each branch. -/
theorem witness_NoIntermediateOverflows :
    let H := mapSample Config.default .horizontal
    let V := mapSample Config.default .vertical
    ((H 4095#12).branch = .hAbove ∧ (H 4095#12).d = some 2088) ∧
    ((H 0#12).branch = .hBelow ∧ (H 0#12).d = some 1900) ∧
    ((V 4095#12).branch = .vAbove ∧ (V 4095#12).d = some 1988) ∧
    ((V 0#12).branch = .vBelow ∧ (V 0#12).d = some 2100) := by decide

theorem witness_HorizontalCurve :
    (1900 ≤ (2000#12).toNat ∧ (2000#12).toNat ≤ 2000) ∧
    (2000 < (2001#12).toNat ∧ (2001#12).toNat < (4088#12).toNat ∧ (4088#12).toNat ≤ 4088) ∧
    4088 ≤ (4088#12).toNat ∧ ((0#12).toNat < (1899#12).toNat ∧ (1899#12).toNat < 1900) := by decide

theorem witness_VerticalCurve :
    Config.default.vDivs = .listed ∧ ((0#12).toNat < (2100#12).toNat ∧ (2100#12).toNat ≤ 2100) ∧
    (2100 < (2101#12).toNat ∧ (2101#12).toNat < (4088#12).toNat ∧ (4088#12).toNat ≤ 4088) ∧
    4088 ≤ (4088#12).toNat := by decide

theorem witness_AlternativeDivisorsClampBelow :
    swapped.vDivs = .swapped ∧ (111#12).toNat ≤ 111 ∧
    (111 < (112#12).toNat ∧ (112#12).toNat ≤ 2100) ∧ 2100 < (2101#12).toNat := by decide

/-- A word of axis 0; states in RUN with the gate open and closed, and in PROG. -/
theorem witness_SmpHMapsAndGates :
    (0x0FFF#13 : BitVec 13).toNat / 4096 = 0 ∧ s0.regs.mode = .run ∧ s0.regs.pwmEn = true ∧
    (st 0 false false .run 0#13 0#13).regs.pwmEn = false ∧
    (st 0 false true .prog 0#13 0#13).regs.mode = .prog := by decide

/-- A word of axis 1; states in RUN with the gate open and closed, and in PROG. -/
theorem witness_SmpVMapsAndGates :
    (0x1000#13 : BitVec 13).toNat / 4096 = 1 ∧ s0.regs.mode = .run ∧ s0.regs.pwmEn = true ∧
    (st 0 false false .run 0#13 0#13).regs.pwmEn = false ∧
    (st 0 false true .prog 0#13 0#13).regs.mode = .prog := by decide

/-- A cycle with a sample of each axis in RUN, and one with none. -/
theorem witness_ResultPort :
    { s0 with inputs := [cyc none (some (0#1, 0#12))] }.inputs = cyc none (some (0#1, 0#12)) :: [] ∧
    (cyc none (some (0#1, 0#12))).rst = false ∧ (cyc none (some (0#1, 0#12))).smpValid = true ∧
    s0.regs.mode = .run ∧ (cyc none (some (1#1, 0#12))).smpAxis = 1#1 ∧
    { s0 with inputs := [idlePorts] }.inputs = idlePorts :: [] ∧ idlePorts.smpValid = false := by
  decide

/-- A dead-zone sample with the gate open (G-5), a vertical one with it closed (G-3). -/
theorem witness_GateDecision :
    (st 500001 false true .run 2048#13 2048#13).regs.mode = .run ∧
    (st 500001 false true .run 2048#13 2048#13).regs.pwmEn = true ∧
    (st 300000 false false .run 2048#13 2048#13).regs.mode = .run ∧
    (st 300000 false false .run 2048#13 2048#13).regs.pwmEn = false := by decide

/-- A cycle that strobes and one that does not, because the gate is closed; a run of both. -/
theorem witness_StrobesCountOpenSamples :
    let p := cyc none (some (1#1, 2100#12))
    { s0 with inputs := [p] }.inputs = p :: [] ∧ p.rst = false ∧ p.smpValid = true ∧
    s0.regs.mode = .run ∧ s0.regs.pwmEn = true ∧
    (st 0 false false .run 0#13 0#13).regs.pwmEn = false ∧
    (runOf s0 [p, cyc (some (3#2, 300000)) none, p]).countP openSample = 1 := by decide

/-- A run that writes a level, closes the gate and presents another sample; EV_NONE. -/
theorem witness_DutyHoldsTheLastWrite :
    let ps := [cyc none (some (0#1, 3044#12)), cyc (some (3#2, 300000)) none,
      cyc none (some (0#1, 0#12))]
    s0.regs = Regs.afterReset s0.cfg ∧ (∀ p ∈ ps, p.rst = false) ∧
    (runOf s0 ps).filterMap (writtenLevel .horizontal) = [2048#13] ∧ s0.regs.mode = .run ∧
    nextOf (exec (.smpH 3044#12) s0) ≠ none ∧ nextOf (exec (.smpV 0#12) s0) ≠ none ∧
    nextOf (exec (.evNone 5) s0) = some s0 := by decide

/-- An EV_PWM that closes the gate; a run of samples under a closed gate. -/
theorem witness_ClosedGateHoldsTheLevels :
    let s := st 300000 false false .run 2048#13 2048#13
    let ps := [cyc none (some (0#1, 950#12)), cyc (some (2#2, 400000)) (some (1#1, 4088#12))]
    nextOf (exec (.evPwm 300000) (st 0 false true .run 2048#13 2048#13)) = some s ∧
    s.regs.pwmEn = false ∧ (∀ p ∈ ps, p.rst = false) ∧
    (∀ c ∈ runOf s ps, c.2.regs.pwmEn = false) ∧ (runOf s ps).length = 2 := by decide

/-- A sample under a closed gate, then an EV_PWM that opens it (G-2, G-4). -/
theorem witness_OpeningTheGateWritesNothing :
    let s := st 300000 false false .run 2048#13 2048#13
    let a := shows s .horizontal 2048#13 30#7 false
    let b := st 500001 false true .run 2048#13 2048#13
    s.regs.mode = .run ∧ s.regs.pwmEn = false ∧ nextOf (exec (.smpH 950#12) s) = some a ∧
    nextOf (exec (.evPwm 500001) a) = some b ∧ b.regs.pwmEn = true := by decide

/-- A cycle in which each flag changes, and one toggle of each alone. -/
theorem witness_OnlyItsToggleAndResetChangeAFlag :
    let s := { s0 with inputs := [cyc (some (3#2, 200001)) none] }
    let t := { s0 with inputs := [cyc (some (2#2, 200001)) none] }
    nextOf (step s) = some (st 200001 false false .run 0#13 0#13) ∧
    nextOf (step t) = some (st 200001 true true .run 0#13 0#13) ∧
    s.regs.lastTs < 2 ^ s.cfg.tsw ∧ false ≠ s.regs.pwmEn ∧ true ≠ t.regs.ledOn ∧
    nextOf (exec (.evPwm 200001) s0) ≠ none ∧ nextOf (exec (.evLed 200001) s0) ≠ none := by decide

/-- A step that strobes and writes; an EV_PWM that leaves the gate closed. -/
theorem witness_LevelsPassOnlyAnOpenGate :
    let s := { s0 with inputs := [cyc none (some (0#1, 3044#12))] }
    let u := shows (st 0 false true .run 2048#13 0#13) .horizontal 2048#13 90#7 true
    nextOf (step s) = some u ∧ u.out.pwm ≠ none ∧
    (cyc none (some (0#1, 3044#12))).rst = false ∧ u.regs.dutyH ≠ s.regs.dutyH ∧
    nextOf (exec (.evPwm 300000) s0) = some (st 300000 false false .run 0#13 0#13) := by decide

/-- A run of every other operation in PROG. -/
theorem witness_ProgIsAbsorbing :
    let s := st 250000 true true .prog 4096#13 0#13
    let ps := [cyc (some (2#2, 999999)) (some (0#1, 0#12)), cyc (some (3#2, 999999)) none,
      cyc (some (1#2, 1000000)) (some (1#1, 0#12)), idlePorts]
    s.regs.mode = .prog ∧ (∀ p ∈ ps, p.rst = false) ∧ (runOf s ps).length = 4 := by decide

/-- A step that enters PROG, and one that leaves it. -/
theorem witness_OnlyEvProgAndResetChangeTheMode :
    let s := { s0 with inputs := [cyc (some (1#2, 7)) none] }
    let p := { st 7 true true .prog 0#13 0#13 with inputs := [{ idlePorts with rst := true }] }
    s.regs.mode = .run ∧ nextOf (step s) = some (st 0 false true .prog 0#13 0#13) ∧
    p.regs.mode = .prog ∧ nextOf (step p) = some s0 ∧ s0.regs ≠ p.regs := by decide

theorem witness_ResetWritesEveryRegister :
    nextOf (exec .reset (st 450001 true false .prog 2048#13 17#13)) = some s0 := by decide

/-- After RESET, an idle cycle. -/
theorem witness_OutputsAfterReset :
    let s := { st 9 true true .prog 1#13 1#13 with inputs := [idlePorts] }
    nextOf (exec .reset s) = some { s0 with inputs := [idlePorts] } ∧
    { s0 with inputs := [idlePorts] }.inputs = idlePorts :: [] ∧ idlePorts.smpValid = false := by
  decide

/-- Two steps that follow one another, the first of which writes. -/
theorem witness_OutputsFollowTheRegisters :
    let t := st 200001 true true .run 0#13 0#13
    nextOf (step { s0 with inputs := [cyc (some (2#2, 200001)) none] }) = some t ∧
    nextOf (step t) = some t := by decide

/-- A step from a state in range at its bounds. -/
theorem witness_EveryStepKeepsTheRegisterRanges :
    let s := { st (2 ^ 64 - 1) false true .run 4096#13 4096#13 with
      inputs := [cyc (some (2#2, 200000)) (some (1#1, 0#12))] }
    s.Wf ∧ nextOf (step s) = some (shows
      (st 200000 true true .run 4096#13 4096#13) .vertical 4096#13 60#7 true) := by decide

/-- A run from the reset registers into PROG and on. -/
theorem witness_ReachableRegisterValues :
    let ps := [cyc none (some (0#1, 0#12)), cyc (some (1#2, 5)) none, cyc (some (2#2, 999999)) none]
    s0.regs = Regs.afterReset s0.cfg ∧ (runOf s0 ps).length = 3 ∧
    ((runOf s0 ps).getLast?.map fun c => (c.1.regs.mode, c.1.inputs.map InputPorts.rst)) =
      some (.prog, [false]) := by decide

end Sys2Proof.Tests
end

/-!
# The cycle in closed form, and the state's safety statements

Every step is `State.afterCycle`: nothing presented, RESET alone, or the sample phase followed by
the event phase (30_encoding.md R58, 20_memory.md R38). The statements of 10_state.md follow from
what each phase can do to the registers.
-/

namespace Sys2Proof.Machine

/-! ## The operation on each port -/

/-- The event operation of a source code, as the state it leaves (R72 to R75). -/
def State.event (s : State) (src : EvSource) (t : Nat) : State :=
  match src with
  | .none => s.nop
  | .prog => s.inRun s.enterProg
  | .led => s.inRun (s.debounced t (s.regs.acceptLed (portTime s.cfg t)))
  | .pwm => s.inRun (s.debounced t (s.regs.acceptPwm (portTime s.cfg t)))

theorem exec_decodeSmp (w : BitVec 13) (s : State) :
    exec (decodeSmp w) s = .next (s.sample (Axis.ofBit (smpAxisField w)) (smpRawField w)) := by
  rcases decodeSmp_cases w with ⟨hax, hop⟩ | ⟨hax, hop⟩ <;> rw [hax, hop] <;> rfl

theorem exec_decodeEv (tsw : Nat) (w : BitVec (2 + tsw)) (s : State) :
    exec (decodeEv tsw w) s =
      .next (s.event (EvSource.ofBits (evSrcField tsw w)) (evTimeField tsw w)) := by
  rcases decodeEv_cases tsw w with ⟨hsrc, hop⟩ | ⟨hsrc, hop⟩ | ⟨hsrc, hop⟩ | ⟨hsrc, hop⟩ <;>
    rw [hsrc, hop] <;> rfl

/-- The event ports side by side are the event word the encoder writes. -/
theorem InputPorts.evWord_eq_encodeEv (p : InputPorts) (tsw : Nat) :
    p.evWord tsw = encodeEv tsw (EvSource.ofBits p.evSrc) p.evTime := by
  simp [InputPorts.evWord, encodeEv]

/-- The sample ports side by side are the sample word the encoder writes. -/
theorem InputPorts.smpWord_eq_encodeSmp (p : InputPorts) :
    p.smpWord = encodeSmp (Axis.ofBit p.smpAxis) p.smpRaw := by
  simp [InputPorts.smpWord, encodeSmp]

/-- A source is selected by its own code only (R52). -/
theorem ofBits_eq_iff {b : BitVec 2} {src : EvSource} : EvSource.ofBits b = src ↔ b = src.bits := by
  constructor <;> rintro rfl <;> simp

/-- An event changes nothing, or it is an EV_PROG or an accepted toggle in RUN. -/
theorem State.event_cases (s : State) (src : EvSource) (t : Nat) :
    s.event src t = s.nop ∨ (s.regs.mode = .run ∧
      ((src = .prog ∧ s.event src t = s.enterProg) ∨
       (src = .led ∧ debounceUs < elapsed s.cfg t s.regs.lastTs ∧
          s.event src t = s.setRegs (s.regs.acceptLed (portTime s.cfg t))) ∨
       (src = .pwm ∧ debounceUs < elapsed s.cfg t s.regs.lastTs ∧
          s.event src t = s.setRegs (s.regs.acceptPwm (portTime s.cfg t))))) := by
  cases src with
  | none => exact .inl rfl
  | prog =>
    rcases s.inRun_cases s.enterProg with ⟨hrun, heq⟩ | ⟨-, heq⟩
    · exact .inr ⟨hrun, .inl ⟨rfl, heq⟩⟩
    · exact .inl heq
  | led =>
    rcases execEvLed_cases t s with ⟨hrun, hacc, heq⟩ | ⟨-, heq⟩
    · exact .inr ⟨hrun, .inr (.inl ⟨rfl, hacc, Host.Outcome.next.inj heq⟩)⟩
    · exact .inl (Host.Outcome.next.inj heq)
  | pwm =>
    rcases execEvPwm_cases t s with ⟨hrun, hacc, heq⟩ | ⟨-, heq⟩
    · exact .inr ⟨hrun, .inr (.inr ⟨rfl, hacc, Host.Outcome.next.inj heq⟩)⟩
    · exact .inl (Host.Outcome.next.inj heq)

/-- What every event leaves alone: no strobe is driven, no parameter and no duty register written
(R70, R73 to R75). -/
theorem State.event_frame (s : State) (src : EvSource) (t : Nat) :
    (s.event src t).out = Outputs.idle ∧ (s.event src t).cfg = s.cfg ∧
    (s.event src t).regs.dutyH = s.regs.dutyH ∧ (s.event src t).regs.dutyV = s.regs.dutyV := by
  rcases s.event_cases src t with heq | ⟨-, ⟨-, heq⟩ | ⟨-, -, heq⟩ | ⟨-, -, heq⟩⟩ <;>
    rw [heq] <;> exact ⟨rfl, rfl, rfl, rfl⟩

@[simp] theorem State.event_out (s : State) (src : EvSource) (t : Nat) :
    (s.event src t).out = Outputs.idle := (s.event_frame src t).left

@[simp] theorem State.event_cfg (s : State) (src : EvSource) (t : Nat) :
    (s.event src t).cfg = s.cfg := (s.event_frame src t).right.left

theorem State.event_duties (s : State) (src : EvSource) (t : Nat) :
    (s.event src t).regs.dutyH = s.regs.dutyH ∧ (s.event src t).regs.dutyV = s.regs.dutyV :=
  (s.event_frame src t).right.right

@[simp] theorem State.sample_cfg (s : State) (axis : Axis) (raw : Sample) :
    (s.sample axis raw).cfg = s.cfg := by
  rcases s.sample_cases axis raw with ⟨-, heq⟩ | ⟨-, heq⟩
  · rcases s.emit_cases axis (mapSample s.cfg axis raw) with ⟨-, hemit⟩ | ⟨-, hemit⟩ <;>
      rw [heq, hemit]
  · rw [heq, State.nop_cfg]

/-- A sample writes its level through the open gate in RUN, or neither writes nor strobes. -/
theorem State.sample_regs_cases (s : State) (axis : Axis) (raw : Sample) :
    (s.regs.mode = .run ∧ s.regs.pwmEn = true ∧
      (s.sample axis raw).regs = s.regs.setDuty axis (mapSample s.cfg axis raw).levelBits) ∨
    ((s.sample axis raw).regs = s.regs ∧ (s.sample axis raw).out.pwm = none) := by
  rcases s.sample_cases axis raw with ⟨hrun, heq⟩ | ⟨-, heq⟩
  · rcases s.emit_cases axis (mapSample s.cfg axis raw) with ⟨hopen, hemit⟩ | ⟨-, hemit⟩
    · exact .inl ⟨hrun, hopen, by rw [heq, hemit]⟩
    · exact .inr (by rw [heq, hemit]; exact ⟨rfl, rfl⟩)
  · exact .inr (by rw [heq]; exact ⟨rfl, rfl⟩)

/-! ## The cycle -/

/-- The sample phase of a cycle without RESET: the sample presented, if any. -/
def State.samplePhase (s : State) (p : InputPorts) : State :=
  if p.smpValid then s.sample (Axis.ofBit p.smpAxis) p.smpRaw else s.nop

/-- The event phase of a cycle without RESET: the event presented, if any, under the outputs the
sample phase drove (R38, R70). -/
def State.eventPhase (s : State) (p : InputPorts) : State :=
  if p.evValid then
    (s.event (EvSource.ofBits p.evSrc) p.evTime).withOutputsOf s
  else s

/-- Of a driven timestamp only the low TSW bits reach an event (R31). -/
theorem State.event_mod {s : State} {tsw : Nat} (h : s.cfg.tsw = tsw) (src : EvSource) (t : Nat) :
    s.event src (t % 2 ^ tsw) = s.event src t := by
  subst h
  have hport : portTime s.cfg (t % 2 ^ s.cfg.tsw) = portTime s.cfg t := Nat.mod_mod _ _
  have hacc : accepted s.cfg (t % 2 ^ s.cfg.tsw) = accepted s.cfg t := by
    funext last
    unfold accepted elapsed
    rw [hport]
  unfold State.event State.debounced
  rw [hport, hacc]

/-- The outputs shown before an event have no part in it. -/
theorem State.event_nop (s : State) (src : EvSource) (t : Nat) :
    s.nop.event src t = s.event src t := by
  unfold State.event State.inRun State.debounced
  cases src <;> rfl

theorem State.withOutputsOf_of_out_eq {a b : State} (h : a.out = b.out) :
    a.withOutputsOf b = a := by
  rw [State.withOutputsOf, ← h]

/-- The state after the coming cycle. -/
def State.afterCycle (s : State) : State :=
  match s.inputs with
  | [] => s.advance.nop
  | p :: _ =>
    if p.rst then s.advance.setRegs (Regs.afterReset s.cfg)
    else (s.advance.samplePhase p).eventPhase p

/-- Every step is a cycle; nothing stops it (R135). -/
theorem step_eq_afterCycle (s : State) : step s = .next s.afterCycle := by
  unfold step State.nextOps State.afterCycle
  cases s.inputs with
  | nil => rfl
  | cons p rest =>
    rcases p.ops_cases s.cfg.tsw with ⟨hrst, hops⟩ | ⟨hrst, hsmp, hev, hops⟩ |
        ⟨hrst, hsmp, hev, hops⟩ | ⟨hrst, hsmp, hev, hops⟩ | ⟨hrst, hsmp, hev, hops⟩
    · simp [hrst, hops, exec, execReset_eq]
    · simp [hrst, hops, State.samplePhase, State.eventPhase, hsmp, hev]
    · simp [hrst, hops, State.samplePhase, State.eventPhase, hsmp, hev, exec_decodeSmp,
        p.smpWord_eq_encodeSmp]
    · simp [hrst, hops, State.samplePhase, State.eventPhase, hsmp, hev, exec_decodeEv,
        p.evWord_eq_encodeEv, State.event_nop]
      rw [State.event_mod (s := s.advance) (tsw := s.cfg.tsw) rfl,
        State.withOutputsOf_of_out_eq (State.event_out _ _ _)]
    · simp [hrst, hops, State.samplePhase, State.eventPhase, hsmp, hev, exec_decodeSmp,
        exec_decodeEv, p.smpWord_eq_encodeSmp, p.evWord_eq_encodeEv, State.event_mod]

/-- The next state of a step is the state after the coming cycle. -/
theorem step_eq_next_iff {s u : State} : step s = .next u ↔ u = s.afterCycle := by
  rw [step_eq_afterCycle, Host.Outcome.next.injEq, eq_comm]

/-- Everything a cycle can do: nothing is presented, RESET is, or the two phases run. -/
theorem State.afterCycle_cases (s : State) :
    (s.inputs = [] ∧ s.afterCycle = s.advance.nop) ∨
    ∃ p rest, s.inputs = p :: rest ∧
      ((p.rst = true ∧ s.afterCycle = s.advance.setRegs (Regs.afterReset s.cfg)) ∨
       (p.rst = false ∧ s.afterCycle = (s.advance.samplePhase p).eventPhase p)) := by
  unfold State.afterCycle
  cases s.inputs with
  | nil => exact .inl ⟨rfl, rfl⟩
  | cons p rest =>
    refine .inr ⟨p, rest, rfl, ?_⟩
    cases hrst : p.rst <;> simp [hrst]

@[simp] theorem State.samplePhase_cfg (s : State) (p : InputPorts) :
    (s.samplePhase p).cfg = s.cfg := by
  unfold State.samplePhase
  split <;> simp

@[simp] theorem State.eventPhase_cfg (s : State) (p : InputPorts) :
    (s.eventPhase p).cfg = s.cfg := by
  unfold State.eventPhase
  split <;> simp

@[simp] theorem State.eventPhase_out (s : State) (p : InputPorts) :
    (s.eventPhase p).out = s.out := by
  unfold State.eventPhase
  split <;> simp

/-- The sample phase passes a level only through the open gate in RUN (R120). -/
theorem State.samplePhase_cases (s : State) (p : InputPorts) :
    (p.smpValid = true ∧ s.regs.mode = .run ∧ s.regs.pwmEn = true ∧
      (s.samplePhase p).regs = s.regs.setDuty (Axis.ofBit p.smpAxis)
        (mapSample s.cfg (Axis.ofBit p.smpAxis) p.smpRaw).levelBits) ∨
    ((s.samplePhase p).regs = s.regs ∧ (s.samplePhase p).out.pwm = none) := by
  unfold State.samplePhase
  split
  · next hvalid =>
    rcases s.sample_regs_cases (Axis.ofBit p.smpAxis) p.smpRaw with ⟨hrun, hopen, heq⟩ | hkeep
    · exact .inl ⟨hvalid, hrun, hopen, heq⟩
    · exact .inr hkeep
  · exact .inr ⟨rfl, rfl⟩

@[simp] theorem State.samplePhase_mode (s : State) (p : InputPorts) :
    (s.samplePhase p).regs.mode = s.regs.mode := by
  rcases s.samplePhase_cases p with ⟨-, -, -, hregs⟩ | ⟨hregs, -⟩ <;> simp [hregs]

@[simp] theorem State.samplePhase_lastTs (s : State) (p : InputPorts) :
    (s.samplePhase p).regs.lastTs = s.regs.lastTs := by
  rcases s.samplePhase_cases p with ⟨-, -, -, hregs⟩ | ⟨hregs, -⟩ <;> simp [hregs]

/-- What the event phase can do to the registers. -/
theorem State.eventPhase_cases (s : State) (p : InputPorts) :
    (s.eventPhase p).regs = s.regs ∨
    (p.evValid = true ∧ s.regs.mode = .run ∧
      ((p.evSrc = 0b01#2 ∧ (s.eventPhase p).regs = { s.regs with mode := .prog }) ∨
       (p.evSrc = 0b10#2 ∧ debounceUs < elapsed s.cfg p.evTime s.regs.lastTs ∧
          (s.eventPhase p).regs = s.regs.acceptLed (portTime s.cfg p.evTime)) ∨
       (p.evSrc = 0b11#2 ∧ debounceUs < elapsed s.cfg p.evTime s.regs.lastTs ∧
          (s.eventPhase p).regs = s.regs.acceptPwm (portTime s.cfg p.evTime)))) := by
  unfold State.eventPhase
  split
  · next hvalid =>
    rcases s.event_cases (EvSource.ofBits p.evSrc) p.evTime with heq |
        ⟨hrun, ⟨hsrc, heq⟩ | ⟨hsrc, hacc, heq⟩ | ⟨hsrc, hacc, heq⟩⟩
    · exact .inl (by simp [heq])
    · exact .inr ⟨hvalid, hrun, .inl ⟨ofBits_eq_iff.1 hsrc, by simp [heq]⟩⟩
    · exact .inr ⟨hvalid, hrun, .inr (.inl ⟨ofBits_eq_iff.1 hsrc, hacc, by simp [heq]⟩)⟩
    · exact .inr ⟨hvalid, hrun, .inr (.inr ⟨ofBits_eq_iff.1 hsrc, hacc, by simp [heq]⟩)⟩
  · exact .inl rfl

/-- The event phase writes no duty register. -/
theorem State.eventPhase_duties (s : State) (p : InputPorts) :
    (s.eventPhase p).regs.dutyH = s.regs.dutyH ∧ (s.eventPhase p).regs.dutyV = s.regs.dutyV := by
  unfold State.eventPhase
  split
  · exact s.event_duties _ _
  · exact ⟨rfl, rfl⟩

/-- Neither phase changes a register in PROG (R70, R143). -/
theorem State.phases_regs_of_prog {s : State} (p : InputPorts) (h : s.regs.mode = .prog) :
    ((s.samplePhase p).eventPhase p).regs = s.regs := by
  have hsample : (s.samplePhase p).regs = s.regs := by
    rcases s.samplePhase_cases p with ⟨-, hrun, -⟩ | ⟨hregs, -⟩
    · simp [h] at hrun
    · exact hregs
  rcases (s.samplePhase p).eventPhase_cases p with hregs | ⟨-, hrun, -⟩
  · rw [hregs, hsample]
  · simp [h] at hrun

/-- In PROG a cycle without RESET changes no register (R14, R21). -/
theorem State.afterCycle_regs_of_prog {s : State} (h : s.regs.mode = .prog)
    (hrst : ∀ p rest, s.inputs = p :: rest → p.rst = false) : s.afterCycle.regs = s.regs := by
  rcases s.afterCycle_cases with ⟨-, heq⟩ | ⟨p, rest, hin, ⟨hr, -⟩ | ⟨-, heq⟩⟩
  · simp [heq]
  · simp [hrst p rest hin] at hr
  · rw [heq, State.phases_regs_of_prog p (s := s.advance) h, State.advance_regs]

/-! ## The register ranges -/

/-- The clamp keeps every level at most full scale (R99, R101). -/
theorem levelOf_clampTo_le (n d : Nat) : levelOf (clampTo n d) d ≤ maxDuty :=
  Nat.div_le_of_le_mul (by
    rw [Nat.mul_comm d]; exact Nat.mul_le_mul_left _ (Nat.min_le_right n d))

theorem mapSample_level_le (c : Config) (axis : Axis) (raw : Sample) :
    (mapSample c axis raw).level ≤ maxDuty := by
  unfold mapSample readBranch
  cases branchOf axis (sampleValue raw) with
  | hAbove => exact levelOf_clampTo_le _ _
  | hBelow => exact levelOf_clampTo_le _ _
  | hDead => exact Nat.zero_le _
  | vAbove => exact levelOf_clampTo_le _ _
  | vBelow => exact levelOf_clampTo_le _ _

theorem mapSample_levelBits_le (c : Config) (axis : Axis) (raw : Sample) :
    (mapSample c axis raw).levelBits.toNat ≤ maxDuty :=
  (Nat.mod_le _ _).trans (mapSample_level_le c axis raw)

theorem State.samplePhase_wf {s : State} (p : InputPorts) (h : s.Wf) : (s.samplePhase p).Wf := by
  obtain ⟨hlast, hdutyH, hdutyV⟩ := h
  refine ⟨by simpa using hlast, ?_⟩
  rcases s.samplePhase_cases p with ⟨-, -, -, hregs⟩ | ⟨hregs, -⟩
  · rw [hregs]
    cases Axis.ofBit p.smpAxis with
    | horizontal => exact ⟨mapSample_levelBits_le _ _ _, hdutyV⟩
    | vertical => exact ⟨hdutyH, mapSample_levelBits_le _ _ _⟩
  · rw [hregs]
    exact ⟨hdutyH, hdutyV⟩

theorem State.eventPhase_wf {s : State} (p : InputPorts) (h : s.Wf) : (s.eventPhase p).Wf := by
  obtain ⟨hlast, hduties⟩ := h
  obtain ⟨hH, hV⟩ := s.eventPhase_duties p
  unfold State.Wf
  rw [hH, hV, State.eventPhase_cfg]
  refine ⟨?_, hduties⟩
  rcases s.eventPhase_cases p with hregs | ⟨-, -, ⟨-, hregs⟩ | ⟨-, -, hregs⟩ | ⟨-, -, hregs⟩⟩ <;>
    rw [hregs]
  · exact hlast
  · exact hlast
  · exact portTime_lt _ _
  · exact portTime_lt _ _

/-- The reset registers are in range (R20). -/
theorem State.wf_of_regs_eq_afterReset {s : State} (h : s.regs = Regs.afterReset s.cfg) :
    s.Wf := by
  unfold State.Wf
  rw [h]
  exact ⟨Nat.two_pow_pos _, Nat.zero_le _, Nat.zero_le _⟩

/-- Every cycle keeps the register ranges (R10, R21). -/
theorem State.afterCycle_wf {s : State} (h : s.Wf) : s.afterCycle.Wf := by
  rcases s.afterCycle_cases with ⟨-, heq⟩ | ⟨p, -, -, ⟨-, heq⟩ | ⟨-, heq⟩⟩ <;> rw [heq]
  · exact h
  · exact State.wf_of_regs_eq_afterReset rfl
  · exact State.eventPhase_wf p (State.samplePhase_wf p (s := s.advance) h)

/-! ## Runs -/

theorem cycles_succ (k : Nat) (s : State) :
    cycles (k + 1) s = (s, s.afterCycle) :: cycles k s.afterCycle := by
  rw [cycles, step_eq_afterCycle]

@[simp] theorem cycles_length (k : Nat) (s : State) : (cycles k s).length = k := by
  induction k generalizing s with
  | zero => rfl
  | succ k ih => rw [cycles_succ, List.length_cons, ih]

/-- No run stops early (R135). -/
@[simp] theorem runOf_length (s : State) (ps : List InputPorts) :
    (runOf s ps).length = ps.length := cycles_length _ _

/-- A property that holds at the start and that every cycle keeps holds before every cycle. -/
theorem cycles_invariant (P : State → Prop) (hkeep : ∀ s, P s → P s.afterCycle) {k : Nat}
    {s : State} (hs : P s) : ∀ c ∈ cycles k s, P c.1 ∧ c.2 = c.1.afterCycle := by
  induction k generalizing s with
  | zero => simp [cycles]
  | succ k ih =>
    rw [cycles_succ, List.forall_mem_cons]
    exact ⟨⟨hs, rfl⟩, ih (hkeep s hs)⟩

/-! ## The statements of 10_state.md -/

/-- A cycle without RESET that strobes or changes a duty register has a sample that passed the open
gate in RUN. -/
theorem State.phases_gate_open {s : State} {p : InputPorts}
    (h : ((s.samplePhase p).eventPhase p).out.pwm ≠ none ∨
      ((s.samplePhase p).eventPhase p).regs.dutyH ≠ s.regs.dutyH ∨
      ((s.samplePhase p).eventPhase p).regs.dutyV ≠ s.regs.dutyV) :
    s.regs.pwmEn = true ∧ s.regs.mode = .run ∧ p.smpValid = true := by
  obtain ⟨hH, hV⟩ := (s.samplePhase p).eventPhase_duties p
  rw [State.eventPhase_out, hH, hV] at h
  rcases s.samplePhase_cases p with ⟨hvalid, hrun, hopen, -⟩ | ⟨hregs, hpwm⟩
  · exact ⟨hopen, hrun, hvalid⟩
  · simp [hregs, hpwm] at h

/-- Settles O51: only the sample phase strobes or writes a duty register, and only through the open
gate in RUN; every event leaves both duty registers alone. -/
theorem levelsPassOnlyAnOpenGate : Obligations.LevelsPassOnlyAnOpenGate := by
  unfold Obligations.LevelsPassOnlyAnOpenGate
  refine ⟨fun s u hstep hpassed => ?_, fun s u t hexec _ => ?_⟩
  · obtain rfl := step_eq_next_iff.1 hstep
    rcases s.afterCycle_cases with ⟨-, heq⟩ | ⟨p, rest, hin, ⟨hrst, heq⟩ | ⟨hrst, heq⟩⟩
    · simp [heq, Outputs.idle] at hpassed
    · rcases hpassed with hpwm | ⟨hnone, -⟩
      · simp [heq, Outputs.idle] at hpwm
      · simp [hnone p rest hin] at hrst
    · rw [heq] at hpassed
      obtain ⟨hopen, hrun, hvalid⟩ :=
        State.phases_gate_open (s := s.advance) (hpassed.imp_right And.right)
      exact ⟨hopen, hrun, p, rest, hin, hrst, hvalid⟩
  · obtain rfl : s.event .pwm t = u := Host.Outcome.next.inj hexec
    exact s.event_duties .pwm t

/-- Settles O53: the sample phase keeps the mode, and of the events only an EV_PROG writes PROG; in
PROG both phases keep every register. -/
theorem onlyEvProgAndResetChangeTheMode : Obligations.OnlyEvProgAndResetChangeTheMode := by
  unfold Obligations.OnlyEvProgAndResetChangeTheMode
  refine ⟨⟨rfl, rfl⟩, fun s u hstep => ?_⟩
  obtain rfl := step_eq_next_iff.1 hstep
  refine ⟨fun hrun hprog => ?_, fun hprog hchanged => ?_⟩
  · rcases s.afterCycle_cases with ⟨-, heq⟩ | ⟨p, rest, hin, ⟨-, heq⟩ | ⟨hrst, heq⟩⟩
    · simp [heq, hrun] at hprog
    · simp [heq] at hprog
    · rw [heq] at hprog
      refine ⟨p, rest, hin, hrst, ?_⟩
      rcases (s.advance.samplePhase p).eventPhase_cases p with hregs |
          ⟨hvalid, -, ⟨hsrc, -⟩ | ⟨-, -, hregs⟩ | ⟨-, -, hregs⟩⟩
      · simp [hregs, hrun] at hprog
      · exact ⟨hvalid, hsrc⟩
      · simp [hregs, hrun] at hprog
      · simp [hregs, hrun] at hprog
  · by_contra hnone
    refine hchanged (State.afterCycle_regs_of_prog hprog fun p rest hin => ?_)
    exact Bool.eq_false_iff.2 fun hrst => hnone ⟨p, rest, hin, hrst⟩

/-- Settles O60, by the invariant `State.Wf` along the run: it holds at the reset registers and
every cycle keeps it. -/
theorem reachableRegisterValues : Obligations.ReachableRegisterValues := by
  unfold Obligations.ReachableRegisterValues
  intro s ps hreset
  refine ⟨runOf_length s ps, fun c hc => ?_⟩
  have hstart : (s.withInputs ps).Wf := State.wf_of_regs_eq_afterReset hreset
  obtain ⟨hwf, hnext⟩ := cycles_invariant State.Wf (fun _ => State.afterCycle_wf) hstart c hc
  obtain ⟨-, hdutyH, hdutyV⟩ : c.2.Wf := hnext ▸ State.afterCycle_wf hwf
  exact ⟨hdutyH, hdutyV, fun hprog hrst => hnext ▸ State.afterCycle_regs_of_prog hprog hrst⟩

end Sys2Proof.Machine

/-!
# The sample and the event of one cycle

A sample writes duty registers only and an event reads none, so the order of the two phases of a
cycle does not show in the registers (20_memory.md R38, 70_reset_and_hazards.md R173).
-/

namespace Sys2Proof.Machine

/-! ## A cycle by its valid bits -/

section Cycle

variable {s : State} {p : InputPorts} {rest : List InputPorts}

/-- A cycle without RESET is its two phases. -/
theorem State.afterCycle_eq_phases (hin : s.inputs = p :: rest) (hrst : p.rst = false) :
    s.afterCycle = ((s.withInputs rest).samplePhase p).eventPhase p := by
  simp [State.afterCycle, State.advance, State.withInputs, hin, hrst]

theorem step_sampleAlone (hin : s.inputs = p :: rest) (hrst : p.rst = false)
    (hsmp : p.smpValid = true) (hev : p.evValid = false) :
    step s = .next ((s.withInputs rest).sample (Axis.ofBit p.smpAxis) p.smpRaw) := by
  rw [step_eq_afterCycle, State.afterCycle_eq_phases hin hrst]
  simp [State.samplePhase, State.eventPhase, hsmp, hev]

theorem step_eventAlone (hin : s.inputs = p :: rest) (hrst : p.rst = false)
    (hsmp : p.smpValid = false) (hev : p.evValid = true) :
    step s = .next ((s.withInputs rest).event (EvSource.ofBits p.evSrc) p.evTime) := by
  rw [step_eq_afterCycle, State.afterCycle_eq_phases hin hrst]
  simpa [State.samplePhase, State.eventPhase, hsmp, hev, State.event_nop] using
    State.withOutputsOf_of_out_eq (b := (s.withInputs rest).nop) (State.event_out _ _ _)

/-- A cycle with both runs the event on the state the sample left, under the sample's outputs. -/
theorem step_sampleAndEvent (hin : s.inputs = p :: rest) (hrst : p.rst = false)
    (hsmp : p.smpValid = true) (hev : p.evValid = true) :
    step s = .next ((((s.withInputs rest).sample (Axis.ofBit p.smpAxis) p.smpRaw).event
      (EvSource.ofBits p.evSrc) p.evTime).withOutputsOf
        ((s.withInputs rest).sample (Axis.ofBit p.smpAxis) p.smpRaw)) := by
  rw [step_eq_afterCycle, State.afterCycle_eq_phases hin hrst]
  simp [State.samplePhase, State.eventPhase, hsmp, hev]

end Cycle

/-! ## What a sample writes and an event reads -/

/-- The registers `r` with the duty registers of `d`. -/
def Regs.withDuties (r d : Regs) : Regs := { r with dutyH := d.dutyH, dutyV := d.dutyV }

theorem Regs.setDuty_eq_withDuties (r : Regs) (axis : Axis) (level : Level) :
    r.setDuty axis level = r.withDuties (r.setDuty axis level) := by
  cases axis <;> rfl

/-- A sample writes duty registers only (R102, R103). -/
theorem State.sample_regs_eq_withDuties (s : State) (axis : Axis) (raw : Sample) :
    (s.sample axis raw).regs = s.regs.withDuties (s.sample axis raw).regs := by
  rcases s.sample_regs_cases axis raw with ⟨-, -, hregs⟩ | ⟨hregs, -⟩ <;> rw [hregs]
  · exact s.regs.setDuty_eq_withDuties axis _
  · rfl

/-- A sample does not look at the cycles still to come, and keeps them. -/
theorem State.sample_withInputs (s : State) (ps : List InputPorts) (axis : Axis) (raw : Sample) :
    (s.withInputs ps).sample axis raw = (s.sample axis raw).withInputs ps := by
  unfold State.sample State.inRun State.emit
  cases hmode : s.regs.mode with
  | run => cases hgate : s.regs.gateOpen <;> simp [State.withInputs, hmode, hgate]
  | prog => simp [State.withInputs, State.nop, hmode]

/-- In RUN a sample shows a result, and strobes exactly when the gate was open (R104, R120). -/
theorem State.sample_strobes {s : State} (hrun : s.regs.mode = .run) (axis : Axis)
    (raw : Sample) : (s.sample axis raw).out.res.isSome = true ∧
      (s.sample axis raw).out.pwm.isSome = s.regs.pwmEn := by
  rw [State.sample, State.inRun_run _ hrun]
  rcases s.emit_cases axis (mapSample s.cfg axis raw) with ⟨hgate, heq⟩ | ⟨hgate, heq⟩ <;>
    rw [heq, hgate] <;> exact ⟨rfl, rfl⟩

/-- An event reads no duty register: on other duties it leaves the same registers, with those
duties (R70, R73 to R75). -/
theorem State.event_regs_withDuties {s u : State} (hcfg : u.cfg = s.cfg) {d : Regs}
    (hregs : u.regs = s.regs.withDuties d) (src : EvSource) (t : Nat) :
    (u.event src t).regs = (s.event src t).regs.withDuties d := by
  have hmode : u.regs.mode = s.regs.mode := by rw [hregs]; rfl
  have hlast : u.regs.lastTs = s.regs.lastTs := by rw [hregs]; rfl
  unfold State.event State.inRun State.debounced
  rw [hmode, hlast, hcfg]
  cases s.regs.mode with
  | prog => cases src <;> exact hregs
  | run =>
    cases src with
    | none => exact hregs
    | prog => simp [hregs, Regs.withDuties]
    | led =>
      cases accepted s.cfg t s.regs.lastTs
      · exact hregs
      · simp [hregs, Regs.withDuties, Regs.acceptLed]
    | pwm =>
      cases accepted s.cfg t s.regs.lastTs
      · exact hregs
      · simp [hregs, Regs.withDuties, Regs.acceptPwm]

/-! ## The statement of 20_memory.md -/

/-- Settles O12: the cycle runs the event on the state the sample left, where it does what it does
on the registers before the cycle, since a sample writes duty registers only and an event reads
none of them. -/
theorem sameCycleSampleAndEvent : Obligations.SameCycleSampleAndEvent := by
  unfold Obligations.SameCycleSampleAndEvent
  intro s p rest hin hrst hsmp hev
  have hkept : ∀ ps, ((s.withInputs ps).sample (Axis.ofBit p.smpAxis) p.smpRaw).inputs = ps :=
    fun ps => congrArg State.inputs (s.sample_withInputs ps _ _)
  refine ⟨_, _, _, _, _, step_sampleAndEvent hin hrst hsmp hev,
    step_sampleAlone rfl hrst hsmp rfl, step_eventAlone rfl hrst rfl hev,
    step_sampleAlone rfl hrst hsmp rfl,
    step_eventAlone (p := { p with smpValid := false }) (hkept _) hrst rfl hev,
    ?_, ?_, rfl, fun hrun => ?_⟩
  · exact State.event_regs_withDuties (State.sample_cfg _ _ _)
      (State.sample_regs_eq_withDuties _ _ _) _ _
  · -- taking the event's cycle from the state after the sample's leaves the sample's own state
    rw [← State.sample_withInputs]
    rfl
  · exact State.sample_strobes (s := s.withInputs rest) hrun _ _

end Sys2Proof.Machine

/-!
# The words and the map of a cycle

A word is a code above an operand, and its operation is the one the code names with that operand
(30_encoding.md R51 to R54); the ports of a cycle name the same operations (R58).
-/

namespace Sys2Proof

/-! ## The operation a code names -/

/-- The event operation of a source code (R52). -/
def EvSource.instr : EvSource → Nat → Instr
  | .none => .evNone
  | .prog => .evProg
  | .led => .evLed
  | .pwm => .evPwm

/-- The sample operation of an axis (R54). -/
def Axis.instr : Axis → Sample → Instr
  | .horizontal => .smpH
  | .vertical => .smpV

theorem EvSource.instr_format (src : EvSource) (t : Nat) : (src.instr t).format = .ev := by
  cases src <;> rfl

theorem decodeEv_eq_instr (tsw : Nat) (w : BitVec (2 + tsw)) :
    decodeEv tsw w = (EvSource.ofBits (evSrcField tsw w)).instr (evTimeField tsw w) := by
  rcases decodeEv_cases tsw w with ⟨hsrc, hop⟩ | ⟨hsrc, hop⟩ | ⟨hsrc, hop⟩ | ⟨hsrc, hop⟩ <;>
    rw [hsrc, hop] <;> rfl

theorem decodeSmp_eq_instr (w : BitVec 13) :
    decodeSmp w = (Axis.ofBit (smpAxisField w)).instr (smpRawField w) := by
  rcases decodeSmp_cases w with ⟨hax, hop⟩ | ⟨hax, hop⟩ <;> rw [hax, hop] <;> rfl

/-! ## The words as numbers -/

/-- The encoder writes the source code above the timestamp (R51). -/
theorem ofNat_eq_encodeEv {tsw t : Nat} (src : EvSource) (ht : t < 2 ^ tsw) :
    BitVec.ofNat (2 + tsw) (src.bits.toNat * 2 ^ tsw + t) = encodeEv tsw src t := by
  have hword : (encodeEv tsw src t).toNat = src.bits.toNat * 2 ^ tsw + t := by
    rw [encodeEv_toNat, Nat.mod_eq_of_lt ht]
  rw [← hword, BitVec.ofNat_toNat, BitVec.setWidth_eq]

/-- The encoder writes the axis bit above the sample (R53). -/
theorem ofNat_eq_encodeSmp {n : Nat} (axis : Axis) (hn : n < 4096) :
    BitVec.ofNat 13 (axis.bit.toNat * 4096 + n) = encodeSmp axis (BitVec.ofNat 12 n) := by
  have hword : (encodeSmp axis (BitVec.ofNat 12 n)).toNat = axis.bit.toNat * 4096 + n := by
    rw [encodeSmp_toNat, BitVec.toNat_ofNat, Nat.mod_eq_of_lt hn]
  rw [← hword, BitVec.ofNat_toNat, BitVec.setWidth_eq]

/-- The number whose high part is a source code and whose low part is a timestamp decodes to that
source's operation at that time (R51, R52). -/
theorem decode_eventWord {tsw t : Nat} (src : EvSource) (ht : t < 2 ^ tsw) :
    decode tsw (.ev (BitVec.ofNat (2 + tsw) (src.bits.toNat * 2 ^ tsw + t))) =
      .ok (src.instr t) := by
  rw [ofNat_eq_encodeEv src ht, decode, decodeEv_eq_instr, evSrcField_encodeEv,
    EvSource.ofBits_bits, evTimeField_encodeEv, Nat.mod_eq_of_lt ht]

/-- The number whose high bit is an axis and whose low part is a sample decodes to that axis's
operation on that sample (R53, R54). -/
theorem decode_sampleWord (tsw : Nat) {n : Nat} (axis : Axis) (hn : n < 4096) :
    decode tsw (.smp (BitVec.ofNat 13 (axis.bit.toNat * 4096 + n))) =
      .ok (axis.instr (BitVec.ofNat 12 n)) := by
  rw [ofNat_eq_encodeSmp axis hn, decode, decodeSmp_eq_instr, smpAxisField_encodeSmp,
    Axis.ofBit_bit, smpRawField_encodeSmp]

/-- An event word below `2 ^ TSW` has the code 00. -/
theorem evSrcField_eq_none_bits {tsw : Nat} {w : BitVec (2 + tsw)} (h : w.toNat / 2 ^ tsw = 0) :
    evSrcField tsw w = EvSource.none.bits := by
  apply BitVec.eq_of_toNat_eq
  rw [evSrcField, BitVec.extractLsb'_toNat, Nat.shiftRight_eq_div_pow, h]
  rfl

end Sys2Proof

namespace Sys2Proof.Machine

/-! ## The operations the ports of a cycle select -/

theorem InputPorts.eventOp_eq_instr (p : InputPorts) (tsw : Nat) :
    p.eventOp tsw = (EvSource.ofBits p.evSrc).instr (p.evTime % 2 ^ tsw) := by
  unfold InputPorts.eventOp EvSource.ofBits
  split_ifs <;> rfl

theorem InputPorts.sampleOp_eq_instr (p : InputPorts) :
    p.sampleOp = (Axis.ofBit p.smpAxis).instr p.smpRaw := by
  unfold InputPorts.sampleOp Axis.ofBit
  split_ifs <;> rfl

theorem exec_sourceInstr (src : EvSource) (t : Nat) (s : State) :
    exec (src.instr t) s = .next (s.event src t) := by
  cases src <;> rfl

theorem exec_axisInstr (axis : Axis) (raw : Sample) (s : State) :
    exec (axis.instr raw) s = .next (s.sample axis raw) := by
  cases axis <;> rfl

/-- The event a cycle selects is the event its ports drive: the port carries the low TSW bits of
the timestamp (R31). -/
theorem exec_eventOp {s : State} {tsw : Nat} (h : s.cfg.tsw = tsw) (p : InputPorts) :
    exec (p.eventOp tsw) s = .next (s.event (EvSource.ofBits p.evSrc) p.evTime) := by
  rw [p.eventOp_eq_instr, exec_sourceInstr, State.event_mod h]

theorem exec_sampleOp (p : InputPorts) (s : State) :
    exec p.sampleOp s = .next (s.sample (Axis.ofBit p.smpAxis) p.smpRaw) := by
  rw [p.sampleOp_eq_instr, exec_axisInstr]

/-! ## The rest of the cycle map -/

section Cycle

variable {s : State} {p : InputPorts} {rest : List InputPorts}

theorem step_reset (hin : s.inputs = p :: rest) (hrst : p.rst = true) :
    step s = exec .reset (s.withInputs rest) := by
  rw [step_eq_afterCycle]
  simp [State.afterCycle, State.advance, State.withInputs, exec, execReset_eq, hin, hrst]

theorem step_idle (hin : s.inputs = p :: rest) (hrst : p.rst = false)
    (hsmp : p.smpValid = false) (hev : p.evValid = false) :
    step s = .next (s.withInputs rest).nop := by
  rw [step_eq_afterCycle, State.afterCycle_eq_phases hin hrst]
  simp [State.samplePhase, State.eventPhase, hsmp, hev]

end Cycle

/-- An event takes none of the cycles still to come. -/
@[simp] theorem State.event_inputs (s : State) (src : EvSource) (t : Nat) :
    (s.event src t).inputs = s.inputs := by
  rcases s.event_cases src t with heq | ⟨-, ⟨-, heq⟩ | ⟨-, -, heq⟩ | ⟨-, -, heq⟩⟩ <;>
    rw [heq] <;> rfl

/-- A sample takes none of the cycles still to come. -/
@[simp] theorem State.sample_inputs (s : State) (axis : Axis) (raw : Sample) :
    (s.sample axis raw).inputs = s.inputs := by
  have hkeep : s.sample axis raw = (s.sample axis raw).withInputs s.inputs :=
    s.sample_withInputs s.inputs axis raw
  rw [hkeep]
  rfl

/-- An event on the state a sample left, under the sample's outputs, is the two operations on the
one state before them: the event's registers with the sample's duties, and the sample's outputs
(R38, R58). -/
theorem State.event_sample_eq (s : State) (axis : Axis) (raw : Sample) (src : EvSource) (t : Nat) :
    ((s.sample axis raw).event src t).withOutputsOf (s.sample axis raw) =
      { s with
        regs := (s.event src t).regs.withDuties (s.sample axis raw).regs
        out := (s.sample axis raw).out } := by
  have hregs := State.event_regs_withDuties (s.sample_cfg axis raw)
    (s.sample_regs_eq_withDuties axis raw) src t
  simp [State.withOutputsOf, hregs]

/-! ## The statements of 30_encoding.md -/

/-- Settles O3: a word with a given high part and low part is the word the encoder writes, whose
fields are those parts. -/
theorem eventWordLayout : Obligations.EventWordLayout := by
  unfold Obligations.EventWordLayout
  refine ⟨fun tsw t ht => ?_, fun w => ⟨rfl, rfl⟩⟩
  exact ⟨decode_eventWord .none ht, decode_eventWord .prog ht, decode_eventWord .led ht,
    decode_eventWord .pwm ht⟩

/-- Settles O4: a word with a given high bit and low part is the word the encoder writes, whose
fields are those parts. -/
theorem sampleWordLayout : Obligations.SampleWordLayout := by
  unfold Obligations.SampleWordLayout
  exact fun tsw n hn =>
    ⟨decode_sampleWord tsw .horizontal hn, decode_sampleWord tsw .vertical hn⟩

/-- Settles O5: every code of either word names an operation, the code 00 a `nop`, and every step
is a cycle. -/
theorem noIllegalEncoding : Obligations.NoIllegalEncoding := by
  unfold Obligations.NoIllegalEncoding
  refine ⟨fun tsw w => ⟨_, rfl, ?_⟩, fun tsw w => ⟨smpRawField w, ?_⟩,
    fun tsw w hcode => ⟨evTimeField tsw w, ?_⟩, fun t s => execEvNone_eq t s,
    fun s p => ⟨_, step_eq_afterCycle _⟩⟩
  · rw [decodeEv_eq_instr, EvSource.instr_format]
  · rcases decodeSmp_cases w with ⟨-, hop⟩ | ⟨-, hop⟩
    · exact .inl (congrArg Except.ok hop)
    · exact .inr (congrArg Except.ok hop)
  · rw [decode, decodeEv_eq_instr, evSrcField_eq_none_bits hcode, EvSource.ofBits_bits]
    rfl

/-- Settles O10: each kind of cycle runs the operations its ports select; with both presented, the
event's registers and the sample's duties and outputs are those of the state before the cycle. -/
theorem completeCycleMap : Obligations.CompleteCycleMap := by
  unfold Obligations.CompleteCycleMap
  intro s p rest hin
  have hsample := exec_sampleOp p (s.withInputs rest)
  have hevent := exec_eventOp (s := s.withInputs rest) (tsw := s.cfg.tsw) rfl p
  refine ⟨step_reset hin, step_idle hin, fun hrst hsmp hev => ?_, fun hrst hsmp hev => ?_,
    fun hrst hsmp hev => ⟨_, _, hsample, hevent, ?_⟩⟩
  · exact (step_sampleAlone hin hrst hsmp hev).trans hsample.symm
  · exact (step_eventAlone hin hrst hsmp hev).trans hevent.symm
  · rw [step_sampleAndEvent hin hrst hsmp hev, State.event_sample_eq]
    rfl

end Sys2Proof.Machine

/-!
# The event operations and the debounce

The debounce test compares `(t - last_ts) mod 2^TSW`, as an integer, with the window
(40_debounce_toggle.md R71). An event is selected by its code (R52), and a toggle writes its
registers when the test accepts it in RUN, and nothing otherwise (R74, R75, R77).
-/

namespace Sys2Proof

/-- A word whose high part is a source's code decodes to that source's operation at the time its
low part is (R51, R52). -/
theorem decode_ev_of_code {tsw : Nat} {w : BitVec (2 + tsw)} (src : EvSource)
    (h : w.toNat / 2 ^ tsw = src.bits.toNat) :
    decode tsw (.ev w) = .ok (src.instr (w.toNat % 2 ^ tsw)) := by
  have hword := decode_eventWord src (Nat.mod_lt w.toNat (Nat.two_pow_pos tsw))
  rwa [← h, Nat.div_add_mod', BitVec.ofNat_toNat, BitVec.setWidth_eq] at hword

end Sys2Proof

namespace Sys2Proof.Machine

/-! ## The debounce test -/

/-- Discarding the borrow is taking the integer difference modulo `2 ^ TSW` (R71). -/
theorem elapsed_eq_elapsedInt (c : Config) (t last : Nat) :
    (elapsed c t last : ℤ) = elapsedInt c t last := by
  have hlast : last % 2 ^ c.tsw ≤ 2 ^ c.tsw := (Nat.mod_lt _ (Nat.two_pow_pos _)).le
  unfold elapsed portTime elapsedInt
  generalize 2 ^ c.tsw = M at hlast ⊢
  calc ((((t % M) + (M - last % M)) % M : ℕ) : ℤ)
      = ((t : ℤ) % M - (last : ℤ) % M + M) % M := by
        push_cast [Nat.cast_sub hlast]
        rw [sub_add_eq_add_sub, add_sub_assoc]
    _ = ((t : ℤ) % M - (last : ℤ) % M) % M := Int.add_emod_right _ _
    _ = ((t : ℤ) - last) % M := (Int.sub_emod _ _ _).symm

theorem accepted_iff_elapsedInt (c : Config) (t last : Nat) :
    accepted c t last = true ↔ 200000 < elapsedInt c t last := by
  rw [accepted_iff, ← elapsed_eq_elapsedInt]
  exact Nat.cast_lt (α := ℤ).symm

theorem not_accepted_iff_elapsedInt (c : Config) (t last : Nat) :
    accepted c t last = false ↔ elapsedInt c t last ≤ 200000 := by
  rw [← Bool.not_eq_true, accepted_iff_elapsedInt, not_lt]

/-- A timestamp `d` after the last accepted one has `d` elapsed, as far as a timestamp can tell. -/
theorem elapsedInt_add {c : Config} {d : Nat} (last : Nat) (hd : d < 2 ^ c.tsw) :
    elapsedInt c (last + d) last = d := by
  rw [elapsedInt, Nat.cast_add, add_sub_cancel_left]
  exact Int.emod_eq_of_lt (Int.natCast_nonneg d) (Int.ofNat_lt.2 hd)

/-! ## The toggles -/

section Toggle

variable {s : State} {t : Nat}

/-- In RUN, past the window, a toggle writes its registers (R74, R75). -/
theorem State.inRun_debounced_accept (r : Regs) (hrun : s.regs.mode = .run)
    (h : 200000 < elapsedInt s.cfg t s.regs.lastTs) : s.inRun (s.debounced t r) = s.setRegs r := by
  rw [State.inRun_run _ hrun]
  exact if_pos ((accepted_iff_elapsedInt _ _ _).2 h)

/-- In PROG or within the window, a toggle is a `nop` (R77, R143). -/
theorem State.inRun_debounced_discard (r : Regs)
    (h : s.regs.mode = .prog ∨ elapsedInt s.cfg t s.regs.lastTs ≤ 200000) :
    s.inRun (s.debounced t r) = s.nop := by
  rcases s.inRun_cases (s.debounced t r) with ⟨hrun, heq⟩ | ⟨-, heq⟩
  · have hwithin := h.resolve_left (by simp [hrun])
    rw [heq, State.debounced, (not_accepted_iff_elapsedInt _ _ _).2 hwithin]
    rfl
  · exact heq

variable {mk : Nat → Instr}

/-- A toggle in PROG or within the window changes no register and drives no strobe (R77). -/
theorem discarded_of_toggle (hmk : mk = Instr.evLed ∨ mk = Instr.evPwm)
    (h : s.regs.mode = .prog ∨ elapsedInt s.cfg t s.regs.lastTs ≤ 200000) :
    Discarded (mk t) s := by
  rcases hmk with rfl | rfl <;>
    exact congrArg Host.Outcome.next (State.inRun_debounced_discard _ h)

theorem acceptedAt_of_toggle (hmk : mk = Instr.evLed ∨ mk = Instr.evPwm)
    (ht : t < 2 ^ s.cfg.tsw) (hrun : s.regs.mode = .run)
    (h : 200000 < elapsedInt s.cfg t s.regs.lastTs) : AcceptedAt (mk t) s t := by
  rcases hmk with rfl | rfl
  · exact ⟨_, congrArg Host.Outcome.next (State.inRun_debounced_accept _ hrun h),
      portTime_of_fits ht, .inl (Bool.not_ne_self _)⟩
  · exact ⟨_, congrArg Host.Outcome.next (State.inRun_debounced_accept _ hrun h),
      portTime_of_fits ht, .inr (Bool.not_ne_self _)⟩

end Toggle

/-! ## Programming mode until RESET -/

@[simp] theorem State.samplePhase_inputs (s : State) (p : InputPorts) :
    (s.samplePhase p).inputs = s.inputs := by
  unfold State.samplePhase
  split <;> simp

@[simp] theorem State.eventPhase_inputs (s : State) (p : InputPorts) :
    (s.eventPhase p).inputs = s.inputs := by
  unfold State.eventPhase
  split <;> simp

/-- A cycle takes one of the cycles the environment will present (R35). -/
@[simp] theorem State.afterCycle_inputs (s : State) : s.afterCycle.inputs = s.inputs.tail := by
  rcases s.afterCycle_cases with ⟨-, heq⟩ | ⟨p, rest, -, ⟨-, heq⟩ | ⟨-, heq⟩⟩ <;> simp [heq]

/-- The block is in PROG and no RESET is still to come. -/
def State.ProgWithoutReset (s : State) : Prop :=
  s.regs.mode = .prog ∧ ∀ p ∈ s.inputs, p.rst = false

/-- Without RESET a cycle leaves the block in PROG (R14). -/
theorem State.ProgWithoutReset.afterCycle {s : State} (h : s.ProgWithoutReset) :
    s.afterCycle.ProgWithoutReset := by
  obtain ⟨hprog, hrst⟩ := h
  have hregs : s.afterCycle.regs = s.regs :=
    State.afterCycle_regs_of_prog hprog fun p rest hin => hrst p (by simp [hin])
  refine ⟨by rw [hregs, hprog], fun p hp => hrst p ?_⟩
  rw [State.afterCycle_inputs] at hp
  exact List.mem_of_mem_tail hp

/-- Over a run without RESET that begins in PROG the request line reads 1 in every cycle (R73). -/
theorem progReq_of_mem_runOf {s : State} {ps : List InputPorts} (hprog : s.regs.mode = .prog)
    (hrst : ∀ p ∈ ps, p.rst = false) {c : State × State} (hc : c ∈ runOf s ps) :
    (cyclePorts c.1 c.2).progReq = true := by
  have hstart : (s.withInputs ps).ProgWithoutReset := ⟨hprog, hrst⟩
  obtain ⟨⟨hmode, -⟩, -⟩ := cycles_invariant State.ProgWithoutReset
    (fun _ => State.ProgWithoutReset.afterCycle) hstart c hc
  exact decide_eq_true hmode

/-- An EV_PROG beside a sample in RUN: the block enters PROG and the sample executes (R38, R73). -/
theorem step_sampleAndProg {s : State} {p : InputPorts} {rest : List InputPorts}
    (hin : s.inputs = p :: rest) (hrst : p.rst = false) (hsmp : p.smpValid = true)
    (hev : p.evValid = true) (hsrc : p.evSrc = EvSource.prog.bits) (hrun : s.regs.mode = .run) :
    ∃ u, step s = .next u ∧ u.regs.mode = .prog ∧
      u.out = ((s.withInputs rest).sample (Axis.ofBit p.smpAxis) p.smpRaw).out := by
  have hevent : (s.withInputs rest).event .prog p.evTime = (s.withInputs rest).enterProg :=
    State.inRun_run _ hrun
  refine ⟨_, step_sampleAndEvent hin hrst hsmp hev, ?_, rfl⟩
  rw [State.event_sample_eq, ofBits_eq_iff.2 hsrc, hevent]
  rfl

/-! ## The statements of 40_debounce_toggle.md -/

/-- Settles O17: EV_PROG in RUN is `State.enterProg`, without a debounce test, and no cycle but
RESET leaves PROG. -/
theorem evProgEntersProgrammingMode : Obligations.EvProgEntersProgrammingMode := by
  unfold Obligations.EvProgEntersProgrammingMode
  refine ⟨fun _ _ hcode => decode_ev_of_code .prog hcode, fun t s hrun => ?_,
    fun t s hprog => congrArg Host.Outcome.next (State.inRun_prog _ hprog),
    fun s p rest hin hrst hsmp hev hsrc hrun => ?_⟩
  · exact ⟨s.enterProg, congrArg Host.Outcome.next (State.inRun_run _ hrun), rfl,
      fun ps hrst c hc => progReq_of_mem_runOf rfl hrst hc⟩
  · obtain ⟨u, hstep, hmode, hout⟩ := step_sampleAndProg hin hrst hsmp hev hsrc hrun
    obtain ⟨hres, hpwm⟩ := State.sample_strobes (s := s.withInputs rest) hrun
      (Axis.ofBit p.smpAxis) p.smpRaw
    exact ⟨u, hstep, hmode, hout ▸ hres, hout ▸ hpwm⟩

/-- Settles O18: EV_LED is the debounced write of its timestamp and the inverted flag. -/
theorem evLedTogglesDebounced : Obligations.EvLedTogglesDebounced := by
  unfold Obligations.EvLedTogglesDebounced
  refine ⟨fun _ _ hcode => decode_ev_of_code .led hcode, fun t s ht _ =>
    ⟨fun hrun hpast => ⟨s.setRegs (s.regs.acceptLed t), ?_, rfl, rfl⟩,
      fun _ hwithin => discarded_of_toggle (.inl rfl) (.inr hwithin),
      fun hprog => discarded_of_toggle (.inl rfl) (.inl hprog)⟩⟩
  rw [exec, execEvLed, portTime_of_fits ht, State.inRun_debounced_accept _ hrun hpast]

/-- Settles O19: EV_PWM is the debounced write of its timestamp and the inverted gate. -/
theorem evPwmTogglesDebounced : Obligations.EvPwmTogglesDebounced := by
  unfold Obligations.EvPwmTogglesDebounced
  refine ⟨fun _ _ hcode => decode_ev_of_code .pwm hcode, fun t s ht _ =>
    ⟨fun hrun hpast => ?_,
      fun _ hwithin => discarded_of_toggle (.inr rfl) (.inr hwithin),
      fun hprog => discarded_of_toggle (.inr rfl) (.inl hprog)⟩⟩
  rw [exec, execEvPwm, portTime_of_fits ht, State.inRun_debounced_accept _ hrun hpast]
  rfl

/-- Settles O23: the elapsed time is the integer difference modulo `2 ^ TSW`, with and without a
borrow, and the test compares it with the window. -/
theorem debounceTest : Obligations.DebounceTest := by
  unfold Obligations.DebounceTest
  exact fun c t last ht hlast => ⟨elapsed_eq_elapsedInt c t last, elapsed_of_le ht,
    elapsed_of_lt hlast, not_accepted_iff_elapsedInt c t last, accepted_iff_elapsedInt c t last⟩

/-- Settles O25: the event at 150000 is discarded and leaves `last_ts`, from which the event at
300000 is measured. -/
theorem bounceDoesNotExtendTheWindow : Obligations.BounceDoesNotExtendTheWindow := by
  unfold Obligations.BounceDoesNotExtendTheWindow
  intro s mk mk' hmk hmk' hrun
  refine ⟨fun t _ _ hwithin => discarded_of_toggle hmk (.inr hwithin), fun hfits => ?_⟩
  have hbounce : elapsedInt s.cfg (s.regs.lastTs + 150000) s.regs.lastTs = (150000 : ℕ) :=
    elapsedInt_add _ (by omega)
  have hlater : elapsedInt s.cfg (s.regs.lastTs + 300000) s.regs.lastTs = (300000 : ℕ) :=
    elapsedInt_add _ (by omega)
  exact ⟨s.nop, discarded_of_toggle hmk (.inr (by omega)), rfl,
    acceptedAt_of_toggle hmk' hfits hrun (by rw [State.nop_cfg, State.nop_regs]; omega)⟩

/-- Settles O16: the code 00 selects EV_NONE, which is a `nop` in either mode. -/
theorem evNoneIsNop : Obligations.EvNoneIsNop := by
  unfold Obligations.EvNoneIsNop
  exact ⟨fun _ _ hcode => decode_ev_of_code .none hcode, execEvNone_eq⟩

end Sys2Proof.Machine

/-!
# The mapper's curve

Outside the dead zone a reading is one of two shapes: its offset rises or falls from the centre `C`
as the intensity `n` grows to the divisor `d`, in both with the span `C` (41_brightness_mapper.md
R91 to R98). What the rules say of a branch follows from its shape, its intensity and its divisor.
-/

namespace Sys2Proof.Machine

/-! ## The two shapes of a reading -/

/-- A reading whose offset rises from `C` with the intensity (R93, R98). -/
def Reading.rising (b : Branch) (C n d : Nat) : Reading where
  branch := b
  n := n
  d := some d
  level := levelOf n d
  off := offsetUp C C n d

/-- A reading whose offset falls from `C` as the intensity grows (R94, R97). -/
def Reading.falling (b : Branch) (C n d : Nat) : Reading where
  branch := b
  n := n
  d := some d
  level := levelOf n d
  off := offsetDown C C n d

section Samples

variable (c : Config) {raw : Sample}

theorem mapSample_hAbove (h : 2000 < raw.toNat) :
    mapSample c .horizontal raw = .rising .hAbove 60 (min (raw.toNat - 2000) 2088) 2088 := by
  rcases mapSample_horizontal_cases c raw with ⟨-, heq⟩ | ⟨hlt, -⟩ | ⟨-, hle, -⟩
  · exact heq
  · omega
  · omega

/-- The clamp is never active below the dead zone (R94). -/
theorem mapSample_hBelow (h : raw.toNat < 1900) :
    mapSample c .horizontal raw = .falling .hBelow 60 (1900 - raw.toNat) 1900 := by
  rcases mapSample_horizontal_cases c raw with ⟨hlt, -⟩ | ⟨-, heq⟩ | ⟨hle, -⟩
  · omega
  · rw [heq, ← Nat.min_eq_left (Nat.sub_le 1900 raw.toNat)]
    rfl
  · omega

theorem mapSample_hDead (h : 1900 ≤ raw.toNat) (h' : raw.toNat ≤ 2000) :
    mapSample c .horizontal raw = readHDead := by
  rcases mapSample_horizontal_cases c raw with ⟨hlt, -⟩ | ⟨hlt, -⟩ | ⟨-, -, heq⟩
  · omega
  · omega
  · exact heq

theorem mapSample_vAbove (h : 2100 < raw.toNat) :
    mapSample c .vertical raw =
      .falling .vAbove 30 (min (raw.toNat - 2100) c.vDivs.above) c.vDivs.above := by
  rcases mapSample_vertical_cases c raw with ⟨-, heq⟩ | ⟨hle, -⟩
  · exact heq
  · omega

theorem mapSample_vBelow (h : raw.toNat ≤ 2100) :
    mapSample c .vertical raw =
      .rising .vBelow 30 (min (2100 - raw.toNat) c.vDivs.below) c.vDivs.below := by
  rcases mapSample_vertical_cases c raw with ⟨hlt, -⟩ | ⟨-, heq⟩
  · omega
  · exact heq

end Samples

/-- The readings the sample value `s` of an axis can give, one constructor a branch (R92, R96). -/
inductive Reads (c : Config) (s : Nat) : Axis → Reading → Prop where
  | hAbove (n : Nat) (hs : 2000 < s) (hn : n = min (s - 2000) 2088) :
      Reads c s .horizontal (.rising .hAbove 60 n 2088)
  | hBelow (n : Nat) (hs : s < 1900) (hn : n = 1900 - s) :
      Reads c s .horizontal (.falling .hBelow 60 n 1900)
  | hDead (hs : 1900 ≤ s) (hs' : s ≤ 2000) : Reads c s .horizontal readHDead
  | vAbove (n d : Nat) (hs : 2100 < s) (hd : d = c.vDivs.above) (hn : n = min (s - 2100) d) :
      Reads c s .vertical (.falling .vAbove 30 n d)
  | vBelow (n d : Nat) (hs : s ≤ 2100) (hd : d = c.vDivs.below) (hn : n = min (2100 - s) d) :
      Reads c s .vertical (.rising .vBelow 30 n d)

theorem reads_mapSample (c : Config) (axis : Axis) (raw : Sample) :
    Reads c raw.toNat axis (mapSample c axis raw) := by
  cases axis with
  | horizontal =>
    rcases mapSample_horizontal_cases c raw with ⟨hs, -⟩ | ⟨hs, -⟩ | ⟨hs, hs', -⟩
    · exact mapSample_hAbove c hs ▸ .hAbove _ hs rfl
    · exact mapSample_hBelow c hs ▸ .hBelow _ hs rfl
    · exact mapSample_hDead c hs hs' ▸ .hDead hs hs'
  | vertical =>
    rcases mapSample_vertical_cases c raw with ⟨hs, -⟩ | ⟨hs, -⟩
    · exact mapSample_vAbove c hs ▸ .vAbove _ _ hs rfl rfl
    · exact mapSample_vBelow c hs ▸ .vBelow _ _ hs rfl rfl

/-- The legal vertical divisors (R6). -/
theorem vDivs_legal (v : VDivs) :
    (v.above = 1988 ∨ v.above = 2100) ∧ (v.below = 1988 ∨ v.below = 2100) := by
  cases v <;> decide

section Reads

variable {c : Config} {s : Nat} {axis : Axis} {r : Reading} {d : Nat}

/-- A reading with a divisor has its level from an intensity of at most the divisor, which is one of
the four constants (R99, R101, R105). -/
theorem Reads.of_some (h : Reads c s axis r) (hr : r.d = some d) :
    (d = 2088 ∨ d = 1900 ∨ d = 1988 ∨ d = 2100) ∧ r.n ≤ d ∧ r.level = levelOf r.n d := by
  have hdivs := vDivs_legal c.vDivs
  cases h with
  | hAbove n hs hn => cases hr; exact ⟨by omega, hn ▸ Nat.min_le_right _ _, rfl⟩
  | hBelow n hs hn => cases hr; exact ⟨by omega, hn ▸ Nat.sub_le _ _, rfl⟩
  | hDead hs hs' => cases hr
  | vAbove n e hs he hn => cases hr; exact ⟨by omega, hn ▸ Nat.min_le_right _ _, rfl⟩
  | vBelow n e hs he hn => cases hr; exact ⟨by omega, hn ▸ Nat.min_le_right _ _, rfl⟩

/-- A dead-zone reading is all zero (R95). -/
theorem Reads.of_none (h : Reads c s axis r) (hr : r.d = none) : r.n = 0 ∧ r.level = 0 := by
  cases h with
  | hDead hs hs' => exact ⟨rfl, rfl⟩
  | _ => cases hr

end Reads

/-! ## The level and the fraction -/

theorem levelOf_mono (d : Nat) {n m : Nat} (h : n ≤ m) : levelOf n d ≤ levelOf m d :=
  Nat.div_le_div_right (Nat.mul_le_mul_left _ h)

theorem levelOf_le {n d : Nat} (h : n ≤ d) : levelOf n d ≤ 4096 :=
  Nat.min_eq_left h ▸ levelOf_clampTo_le n d

theorem le_levelOf {k n d : Nat} (hd : 0 < d) (h : k * d ≤ 4096 * n) : k ≤ levelOf n d :=
  (Nat.le_div_iff_mul_le hd).2 h

/-- Full scale is reached at the divisor only (R101). -/
theorem levelOf_eq_full_iff {n d : Nat} (hd : 0 < d) (hn : n ≤ d) :
    levelOf n d = 4096 ↔ n = d := by
  constructor
  · intro hfull
    have hmul : levelOf n d * d ≤ 4096 * n := Nat.div_mul_le_self _ d
    rw [hfull] at hmul
    omega
  · rintro rfl
    exact Nat.mul_div_cancel _ hd

/-- Every non-zero intensity has a level: no divisor exceeds full scale (R101). -/
theorem levelOf_eq_zero_iff {n d : Nat} (hd : 0 < d) (hfull : d ≤ 4096) :
    levelOf n d = 0 ↔ n = 0 := by
  change 4096 * n / d = 0 ↔ n = 0
  rw [Nat.div_eq_zero_iff_lt hd]
  exact ⟨fun h => by omega, fun h => by omega⟩

theorem Reading.frac_of_d {r : Reading} {d : Nat} (h : r.d = some d) :
    r.frac = (r.n : ℚ) / d := by
  simp [Reading.frac, h]

theorem Reading.frac_of_none {r : Reading} (h : r.d = none) : r.frac = 0 := by
  simp [Reading.frac, h]

@[simp] theorem Reading.rising_frac (b : Branch) (C n d : Nat) :
    (Reading.rising b C n d).frac = (n : ℚ) / d := rfl

@[simp] theorem Reading.falling_frac (b : Branch) (C n d : Nat) :
    (Reading.falling b C n d).frac = (n : ℚ) / d := rfl

/-- An intensity of at most its divisor is a fraction of at most 1 (R99). -/
theorem frac_le_one {n d : Nat} (h : n ≤ d) : (n : ℚ) / d ≤ 1 :=
  div_le_one_of_le₀ (Nat.cast_le.2 h) (Nat.cast_nonneg d)

theorem frac_le_frac (d : Nat) {n m : Nat} (h : n ≤ m) : (n : ℚ) / d ≤ (m : ℚ) / d :=
  div_le_div_of_nonneg_right (Nat.cast_le.2 h) (Nat.cast_nonneg d)

theorem frac_lt_frac {d n m : Nat} (hd : 0 < d) (h : n < m) : (n : ℚ) / d < (m : ℚ) / d :=
  div_lt_div_of_pos_right (Nat.cast_lt.2 h) (Nat.cast_pos.2 hd)

theorem frac_self {d : Nat} (hd : 0 < d) : (d : ℚ) / d = 1 :=
  div_self (Nat.cast_ne_zero.2 hd.ne')

/-! ## The offset -/

/-- A rising offset is the floor of the whole expression (R106). -/
theorem offsetUp_eq_floor (C S n d : Nat) :
    (offsetUp C S n d : ℤ) = ⌊(C : ℚ) + S * n / d⌋ := by
  rw [Int.floor_natCast_add, ← Nat.cast_mul, Rat.floor_natCast_div_natCast]
  simp [offsetUp]

/-- A span of at most the centre never takes a falling offset below 0. -/
theorem ceilDiv_mul_le {S n d : Nat} (hd : 0 < d) (hn : n ≤ d) : ceilDiv (S * n) d ≤ S := by
  have hmul : S * n ≤ S * d := Nat.mul_le_mul_left S hn
  exact Nat.le_of_lt_succ ((Nat.div_lt_iff_lt_mul hd).2 (by rw [Nat.succ_mul]; omega))

/-- `ceilDiv` is the ceiling of the quotient (R8). -/
theorem ceilDiv_eq_ceil (a : Nat) {d : Nat} (hd : 0 < d) : (ceilDiv a d : ℤ) = ⌈(a : ℚ) / d⌉ := by
  have hd' : (0 : ℚ) < d := Nat.cast_pos.2 hd
  have hlow : a ≤ d * ceilDiv a d := by
    have := Nat.lt_div_mul_add hd (a := a + d - 1)
    unfold ceilDiv
    rw [Nat.mul_comm]
    omega
  have hhigh : d * ceilDiv a d < a + d := by
    have : d * ceilDiv a d ≤ a + d - 1 := Nat.mul_div_le _ _
    omega
  rw [eq_comm, Int.ceil_eq_iff, lt_div_iff₀ hd', div_le_iff₀ hd', Int.cast_natCast]
  constructor
  · have : (d * ceilDiv a d : ℚ) < a + d := by exact_mod_cast hhigh
    linarith
  · rw [mul_comm]
    exact_mod_cast hlow

/-- A falling offset is the floor of the whole expression, too (R106). -/
theorem offsetDown_eq_floor {C S n d : Nat} (hd : 0 < d) (hn : n ≤ d) (hS : S ≤ C) :
    (offsetDown C S n d : ℤ) = ⌊(C : ℚ) - S * n / d⌋ := by
  have hle : ceilDiv (S * n) d ≤ C := (ceilDiv_mul_le hd hn).trans hS
  rw [offsetDown, Nat.cast_sub hle, ceilDiv_eq_ceil _ hd, sub_eq_add_neg (C : ℚ),
    Int.floor_natCast_add, Int.floor_neg, ← Nat.cast_mul, sub_eq_add_neg]

theorem offsetUp_mono (C S d : Nat) {n m : Nat} (h : n ≤ m) :
    offsetUp C S n d ≤ offsetUp C S m d :=
  Nat.add_le_add_left (Nat.div_le_div_right (Nat.mul_le_mul_left S h)) C

theorem offsetDown_anti (C S d : Nat) {n m : Nat} (h : n ≤ m) :
    offsetDown C S m d ≤ offsetDown C S n d := by
  have hmul : S * n ≤ S * m := Nat.mul_le_mul_left S h
  exact Nat.sub_le_sub_left (Nat.div_le_div_right (by omega)) C

theorem le_offsetUp (C S n d : Nat) : C ≤ offsetUp C S n d := Nat.le_add_right _ _

theorem offsetUp_le {C S n d : Nat} (hn : n ≤ d) : offsetUp C S n d ≤ C + S :=
  Nat.add_le_add_left (Nat.div_le_of_le_mul (by
    rw [Nat.mul_comm d]; exact Nat.mul_le_mul_left S hn)) C

theorem offsetDown_le (C S n d : Nat) : offsetDown C S n d ≤ C := Nat.sub_le _ _

/-- A falling offset leaves its centre at the first step (R106). -/
theorem offsetDown_lt {C S n d : Nat} (hC : 0 < C) (hS : 0 < S) (hn : 0 < n) (hd : 0 < d) :
    offsetDown C S n d < C := by
  have hprod : 0 < S * n := Nat.mul_pos hS hn
  exact Nat.sub_lt hC (Nat.div_pos (by omega) hd)

theorem Reading.rising_off_eq_floor (b : Branch) (C n d : Nat) :
    ((Reading.rising b C n d).off : ℤ) = ⌊(C : ℚ) + C * (Reading.rising b C n d).frac⌋ := by
  rw [Reading.rising_frac, ← mul_div_assoc]
  exact offsetUp_eq_floor C C n d

theorem Reading.falling_off_eq_floor (b : Branch) (C : Nat) {n d : Nat} (hd : 0 < d)
    (hn : n ≤ d) :
    ((Reading.falling b C n d).off : ℤ) = ⌊(C : ℚ) - C * (Reading.falling b C n d).frac⌋ := by
  rw [Reading.falling_frac, ← mul_div_assoc]
  exact offsetDown_eq_floor hd hn le_rfl

/-- The offset ranges of the branches, each that of a fraction in `[0, 1]` (R99). -/
theorem Reads.off_range {c : Config} {s : Nat} {axis : Axis} {r : Reading}
    (h : Reads c s axis r) :
    (r.branch = .hAbove → 60 ≤ r.off ∧ r.off ≤ 120) ∧ (r.branch = .hBelow → r.off ≤ 60) ∧
    (r.branch = .hDead → r.off = 60) ∧ (r.branch = .vAbove → r.off ≤ 30) ∧
    (r.branch = .vBelow → 30 ≤ r.off ∧ r.off ≤ 60) := by
  cases h with
  | hAbove n hs hn =>
    have hle : offsetUp 60 60 n 2088 ≤ 60 + 60 := offsetUp_le (hn ▸ Nat.min_le_right _ _)
    exact ⟨fun _ => ⟨le_offsetUp _ _ _ _, hle⟩, nofun, nofun, nofun, nofun⟩
  | hBelow n hs hn => exact ⟨nofun, fun _ => offsetDown_le _ _ _ _, nofun, nofun, nofun⟩
  | hDead hs hs' => exact ⟨nofun, nofun, fun _ => rfl, nofun, nofun⟩
  | vAbove n d hs hd hn => exact ⟨nofun, nofun, nofun, fun _ => offsetDown_le _ _ _ _, nofun⟩
  | vBelow n d hs hd hn =>
    have hle : offsetUp 30 30 n d ≤ 30 + 30 := offsetUp_le (hn ▸ Nat.min_le_right _ _)
    exact ⟨nofun, nofun, nofun, nofun, fun _ => ⟨le_offsetUp _ _ _ _, hle⟩⟩

/-- The largest offset of an axis: 120 on the horizontal, 60 on the vertical (R99). -/
def maxOff : Axis → Nat
  | .horizontal => 120
  | .vertical => 60

theorem mapSample_off_le (c : Config) (axis : Axis) (raw : Sample) :
    (mapSample c axis raw).off ≤ maxOff axis := by
  have h := reads_mapSample c axis raw
  obtain ⟨hHA, hHB, hHD, hVA, hVB⟩ := h.off_range
  generalize mapSample c axis raw = r at h hHA hHB hHD hVA hVB ⊢
  cases h with
  | hAbove n hs hn => exact (hHA rfl).right
  | hBelow n hs hn => exact (hHB rfl).trans (by decide)
  | hDead hs hs' => decide
  | vAbove n d hs hd hn => exact (hVA rfl).trans (by decide)
  | vBelow n d hs hd hn => exact (hVB rfl).right

/-- The 13-bit ports carry every level unchanged (R101, R105). -/
theorem mapSample_levelBits_toNat (c : Config) (axis : Axis) (raw : Sample) :
    (mapSample c axis raw).levelBits.toNat = (mapSample c axis raw).level :=
  Nat.mod_eq_of_lt ((mapSample_level_le c axis raw).trans_lt (by decide))

/-- The 7-bit port carries every offset unchanged (R104, R105). -/
theorem mapSample_offBits_toNat (c : Config) (axis : Axis) (raw : Sample) :
    (mapSample c axis raw).offBits.toNat = (mapSample c axis raw).off :=
  Nat.mod_eq_of_lt ((mapSample_off_le c axis raw).trans_lt (by cases axis <;> decide))

/-! ## The sample operations -/

/-- A word whose high bit is an axis decodes to that axis's operation on the sample its low part is
(R53, R54). -/
theorem decode_smp_of_bit (tsw : Nat) {w : BitVec 13} (axis : Axis)
    (h : w.toNat / 4096 = axis.bit.toNat) :
    decode tsw (.smp w) = .ok (axis.instr (BitVec.ofNat 12 (w.toNat % 4096))) := by
  have hword := decode_sampleWord tsw axis (Nat.mod_lt w.toNat (by decide : 0 < 4096))
  rwa [← h, Nat.div_add_mod', BitVec.ofNat_toNat, BitVec.setWidth_eq] at hword

section Gate

variable {s : State} (axis : Axis) (raw : Sample)

/-- In RUN with the gate open a sample is shown, strobed and held (R104, R121, R122). -/
theorem State.sample_open (hrun : s.regs.mode = .run) (hgate : s.regs.pwmEn = true) :
    s.sample axis raw =
      { s with
        regs := s.regs.setDuty axis (mapSample s.cfg axis raw).levelBits
        out :=
          { res := some ((mapSample s.cfg axis raw).result axis)
            pwm := some ⟨axis, (mapSample s.cfg axis raw).levelBits⟩ } } := by
  rw [State.sample, State.inRun_run _ hrun]
  exact if_pos hgate

/-- In RUN with the gate closed a sample is shown and nothing else (R104, R123). -/
theorem State.sample_closed (hrun : s.regs.mode = .run) (hgate : s.regs.pwmEn = false) :
    s.sample axis raw =
      { s with out := { res := some ((mapSample s.cfg axis raw).result axis), pwm := none } } := by
  rw [State.sample, State.inRun_run _ hrun]
  exact if_neg (Bool.not_eq_true _ ▸ hgate)

/-- In RUN a sample shows its reading whatever the gate (R104). -/
theorem State.sample_res (hrun : s.regs.mode = .run) :
    (s.sample axis raw).out.res = some ((mapSample s.cfg axis raw).result axis) := by
  cases hgate : s.regs.pwmEn with
  | true => rw [State.sample_open axis raw hrun hgate]
  | false => rw [State.sample_closed axis raw hrun hgate]

end Gate

/-- The horizontal mapper meets its contract (R92 to R95). -/
theorem mapSample_hContract (c : Config) (raw : Sample) :
    hContract raw.toNat (mapSample c .horizontal raw).level (mapSample c .horizontal raw).off := by
  have h := reads_mapSample c .horizontal raw
  generalize mapSample c .horizontal raw = r at h ⊢
  cases h with
  | hAbove n hs hn => exact .inl ⟨hs, by rw [← hn]; rfl, by rw [← hn]; rfl⟩
  | hBelow n hs hn => exact .inr (.inl ⟨hs, by rw [← hn]; rfl, by rw [← hn]; rfl⟩)
  | hDead hs hs' => exact .inr (.inr ⟨hs, hs', rfl, rfl⟩)

/-- The vertical mapper meets its contract under either divisor assignment (R96 to R98). -/
theorem mapSample_vContract (c : Config) (raw : Sample) :
    vContract c.vDivs.above c.vDivs.below raw.toNat (mapSample c .vertical raw).level
      (mapSample c .vertical raw).off := by
  rcases Nat.lt_or_ge 2100 raw.toNat with hs | hs
  · rw [mapSample_vAbove c hs]
    exact .inl ⟨hs, rfl, rfl⟩
  · rw [mapSample_vBelow c hs]
    exact .inr ⟨hs, rfl, rfl⟩

/-- Without a sample, or in PROG, the sample phase shows no result (R104). -/
theorem State.samplePhase_res_none {s : State} {p : InputPorts}
    (h : p.smpValid = false ∨ s.regs.mode = .prog) : (s.samplePhase p).out.res = none := by
  unfold State.samplePhase
  split
  · next hvalid =>
    have hprog : s.regs.mode = .prog := h.resolve_left (by simp [hvalid])
    rw [State.sample, State.inRun_prog _ hprog]
    rfl
  · rfl

/-! ## The laws of every reading -/

/-- Settles O36: a reading with a divisor has the level of its intensity, and no divisor exceeds
full scale; a dead-zone reading is all zero. -/
theorem levelLaw : Obligations.LevelLaw := by
  unfold Obligations.LevelLaw
  rintro c axis raw r rfl
  have h := reads_mapSample c axis raw
  have hzero : (mapSample c axis raw).level = 0 ↔ (mapSample c axis raw).n = 0 := by
    cases hr : (mapSample c axis raw).d with
    | none =>
      obtain ⟨hn, hlevel⟩ := h.of_none hr
      simp [hn, hlevel]
    | some d =>
      obtain ⟨hconst, -, hlevel⟩ := h.of_some hr
      rw [hlevel]
      exact levelOf_eq_zero_iff (by omega) (by omega)
  refine ⟨fun d hr => ?_, hzero, fun hr => ?_, mapSample_levelBits_toNat c axis raw, by decide,
    by decide⟩
  · obtain ⟨hconst, hle, hlevel⟩ := h.of_some hr
    exact ⟨hlevel, hlevel ▸ levelOf_eq_full_iff (by omega) hle⟩
  · obtain ⟨-, hlevel⟩ := h.of_none hr
    simp [hlevel]

/-- The clamp keeps the fraction in `[0, 1]` (R99). -/
theorem Reads.frac_range {c : Config} {s : Nat} {axis : Axis} {r : Reading}
    (h : Reads c s axis r) : 0 ≤ r.frac ∧ r.frac ≤ 1 := by
  cases hr : r.d with
  | none =>
    rw [Reading.frac_of_none hr]
    exact ⟨le_rfl, zero_le_one⟩
  | some d =>
    obtain ⟨-, hle, -⟩ := h.of_some hr
    rw [Reading.frac_of_d hr]
    exact ⟨by positivity, frac_le_one hle⟩

/-- The floor of each branch's expression, and the same offset over the integers (R106). -/
theorem Reads.off_eq {c : Config} {s : Nat} {axis : Axis} {r : Reading} (h : Reads c s axis r) :
    (r.branch = .hAbove → (r.off : ℤ) = ⌊60 + 60 * r.frac⌋) ∧
    (r.branch = .hBelow → (r.off : ℤ) = ⌊60 - 60 * r.frac⌋) ∧
    (r.branch = .vAbove → (r.off : ℤ) = ⌊30 - 30 * r.frac⌋) ∧
    (r.branch = .vBelow → (r.off : ℤ) = ⌊30 + 30 * r.frac⌋) ∧
    ∀ d, r.d = some d →
      (r.branch = .hAbove → r.off = 60 + 60 * r.n / d) ∧
      (r.branch = .hBelow → r.off = 60 - (60 * r.n + d - 1) / d) ∧
      (r.branch = .vAbove → r.off = 30 - (30 * r.n + d - 1) / d) ∧
      (r.branch = .vBelow → r.off = 30 + 30 * r.n / d) := by
  cases h with
  | hAbove n hs hn =>
    refine ⟨fun _ => Reading.rising_off_eq_floor _ 60 n 2088, nofun, nofun, nofun, ?_⟩
    rintro d ⟨⟩
    exact ⟨fun _ => rfl, nofun, nofun, nofun⟩
  | hBelow n hs hn =>
    have hle : n ≤ 1900 := hn ▸ Nat.sub_le _ _
    refine ⟨nofun, fun _ => Reading.falling_off_eq_floor _ 60 (by decide) hle, nofun, nofun, ?_⟩
    rintro d ⟨⟩
    exact ⟨nofun, fun _ => rfl, nofun, nofun⟩
  | hDead hs hs' => exact ⟨nofun, nofun, nofun, nofun, nofun⟩
  | vAbove n d hs hd hn =>
    have hle : n ≤ d := hn ▸ Nat.min_le_right _ _
    have hpos : 0 < d := hd ▸ (vDivs_pos c.vDivs).left
    refine ⟨nofun, nofun, fun _ => Reading.falling_off_eq_floor _ 30 hpos hle, nofun, ?_⟩
    rintro d ⟨⟩
    exact ⟨nofun, nofun, fun _ => rfl, nofun⟩
  | vBelow n d hs hd hn =>
    refine ⟨nofun, nofun, nofun, fun _ => Reading.rising_off_eq_floor _ 30 n d, ?_⟩
    rintro d ⟨⟩
    exact ⟨nofun, nofun, nofun, fun _ => rfl⟩

/-- Up to the upper end of the dead zone no horizontal offset exceeds the centre. -/
theorem mapSample_off_le_center (c : Config) {raw : Sample} (h : raw.toNat ≤ 2000) :
    (mapSample c .horizontal raw).off ≤ 60 := by
  rcases Nat.lt_or_ge raw.toNat 1900 with hs | hs
  · rw [mapSample_hBelow c hs]
    exact offsetDown_le _ _ _ _
  · rw [mapSample_hDead c hs h]
    exact le_rfl

/-- From the lower end of the dead zone on no horizontal offset is below the centre. -/
theorem center_le_mapSample_off (c : Config) {raw : Sample} (h : 1900 ≤ raw.toNat) :
    60 ≤ (mapSample c .horizontal raw).off := by
  rcases Nat.lt_or_ge 2000 raw.toNat with hs | hs
  · rw [mapSample_hAbove c hs]
    exact le_offsetUp _ _ _ _
  · rw [mapSample_hDead c h hs]
    exact le_rfl

/-- One sample above the centre of the stick the floor drops the vertical offset to 29, one below it
the offset is still 30, under either divisor assignment (R106). -/
theorem vertical_off_at_center (c : Config) :
    (mapSample c .vertical 2101#12).off = 29 ∧ (mapSample c .vertical 2099#12).off = 30 := by
  rw [mapSample_vAbove c (by decide), mapSample_vBelow c (by decide)]
  cases c.vDivs <;> decide

/-- Settles O37: each offset is the floor of its branch's expression in the fraction; an offset of
61 takes an intensity of at least 35. -/
theorem offsetIsTheFloorOfTheWhole : Obligations.OffsetIsTheFloorOfTheWhole := by
  unfold Obligations.OffsetIsTheFloorOfTheWhole
  refine ⟨?_, fun c => ?_⟩
  · rintro c axis raw r rfl
    exact (reads_mapSample c axis raw).off_eq
  · obtain ⟨habove, hbelow⟩ := vertical_off_at_center c
    refine ⟨rfl, rfl, habove, hbelow, rfl, fun raw hoff => ?_⟩
    rcases Nat.lt_or_ge 2000 raw.toNat with hs | hs
    · rw [mapSample_hAbove c hs] at hoff
      change 60 + 60 * min (raw.toNat - 2000) 2088 / 2088 = 61 at hoff
      omega
    · have hle := mapSample_off_le_center c hs
      omega

/-- The branch guards and the products before the division (R105). -/
theorem Reads.intermediates {c : Config} {s : Nat} {axis : Axis} {r : Reading}
    (h : Reads c s axis r) :
    (r.branch = .hAbove → 2000 < s ∧ 60 * r.n ≤ 125280) ∧
    (r.branch = .hBelow → s < 1900 ∧ 60 * r.n + 1899 ≤ 115899) ∧
    (r.branch = .vAbove → 2100 < s) ∧ (r.branch = .vBelow → s ≤ 2100) := by
  cases h with
  | hAbove n hs hn =>
    have hle : n ≤ 2088 := hn ▸ Nat.min_le_right _ _
    exact ⟨fun _ => ⟨hs, Nat.mul_le_mul_left 60 hle⟩, nofun, nofun, nofun⟩
  | hBelow n hs hn =>
    have hle : n ≤ 1900 := hn ▸ Nat.sub_le _ _
    exact ⟨nofun, fun _ => ⟨hs, Nat.add_le_add_right (Nat.mul_le_mul_left 60 hle) 1899⟩,
      nofun, nofun⟩
  | hDead hs hs' => exact ⟨nofun, nofun, nofun, nofun⟩
  | vAbove n d hs hd hn => exact ⟨nofun, nofun, fun _ => hs, nofun⟩
  | vBelow n d hs hd hn => exact ⟨nofun, nofun, nofun, fun _ => hs⟩

/-- Settles O38: the branch taken makes each subtraction safe, and the clamp bounds the intensity
by a divisor of at most 2100, and with it every product. -/
theorem noIntermediateOverflows : Obligations.NoIntermediateOverflows := by
  unfold Obligations.NoIntermediateOverflows
  rintro c axis raw r rfl
  have h := reads_mapSample c axis raw
  obtain ⟨hHA, hHB, hVA, hVB⟩ := h.intermediates
  have hn : (mapSample c axis raw).n ≤ 2100 := by
    cases hr : (mapSample c axis raw).d with
    | none =>
      obtain ⟨hn, -⟩ := h.of_none hr
      omega
    | some d =>
      obtain ⟨hconst, hle, -⟩ := h.of_some hr
      omega
  refine ⟨hHA, hHB, hVA, hVB, fun d hr => ?_, hn, by decide, by omega, by decide, by decide,
    by decide, by decide, mapSample_levelBits_toNat c axis raw, mapSample_offBits_toNat c axis raw⟩
  obtain ⟨hconst, hle, -⟩ := h.of_some hr
  exact ⟨hconst, fun _ => by omega⟩

/-! ## The branches and the clamp -/

theorem Reads.branch_eq_hDead_iff {c : Config} {s : Nat} {r : Reading}
    (h : Reads c s .horizontal r) : r.branch = .hDead ↔ 1900 ≤ s ∧ s ≤ 2000 := by
  cases h with
  | hAbove n hs hn => exact ⟨nofun, fun ⟨_, hle⟩ => absurd hle (Nat.not_le.2 hs)⟩
  | hBelow n hs hn => exact ⟨nofun, fun ⟨hle, _⟩ => absurd hle (Nat.not_le.2 hs)⟩
  | hDead hs hs' => exact ⟨fun _ => ⟨hs, hs'⟩, fun _ => rfl⟩

/-- The dead zone has 101 sample values (R92). -/
theorem count_deadZone (c : Config) : ((List.range 4096).filter fun s =>
    decide ((mapSample c .horizontal (BitVec.ofNat 12 s)).branch = .hDead)).length = 101 := by
  have hdead : ∀ s ∈ List.range 4096,
      decide ((mapSample c .horizontal (BitVec.ofNat 12 s)).branch = .hDead) =
        decide (1900 ≤ s ∧ s ≤ 2000) := by
    intro s hs
    have hraw : (BitVec.ofNat 12 s).toNat = s := Nat.mod_eq_of_lt (List.mem_range.1 hs)
    have h := reads_mapSample c .horizontal (BitVec.ofNat 12 s)
    rw [hraw] at h
    exact decide_eq_decide.2 h.branch_eq_hDead_iff
  have hzone : (Finset.range 4096).filter (fun s => 1900 ≤ s ∧ s ≤ 2000) =
      Finset.Icc 1900 2000 := by
    ext s
    simp only [Finset.mem_filter, Finset.mem_range, Finset.mem_Icc]
    omega
  rw [List.filter_congr hdead, ← List.countP_eq_length_filter]
  exact (Nat.count_eq_card_filter_range _ 4096).trans (by rw [hzone, Nat.card_Icc])

/-- A dead-zone sample shows level 0 and the neutral offset, and its level passes the gate like any
other (R95, R120). -/
theorem exec_deadZone {s : State} {raw : Sample} (h : 1900 ≤ raw.toNat) (h' : raw.toNat ≤ 2000)
    (hrun : s.regs.mode = .run) :
    ∃ u, exec (.smpH raw) s = .next u ∧ u.out.res = some ⟨.horizontal, 0#13, 60#7⟩ ∧
      (s.regs.pwmEn = true → u.out.pwm = some ⟨.horizontal, 0#13⟩ ∧ u.regs.dutyH = 0#13) ∧
      (s.regs.pwmEn = false → u.out.pwm = none ∧ u.regs.dutyH = s.regs.dutyH) := by
  refine ⟨_, execSmpH_eq raw s, ?_, fun hgate => ?_, fun hgate => ?_⟩
  · rw [State.sample_res .horizontal raw hrun, mapSample_hDead s.cfg h h']
    rfl
  · rw [State.sample_open .horizontal raw hrun hgate, mapSample_hDead s.cfg h h']
    exact ⟨rfl, rfl⟩
  · rw [State.sample_closed .horizontal raw hrun hgate]
    exact ⟨rfl, rfl⟩

/-- Settles O33: each branch is its shape with its intensity and divisor, and the ranges are those
of the intensity. -/
theorem horizontalMapper : Obligations.HorizontalMapper := by
  unfold Obligations.HorizontalMapper
  refine ⟨?_, count_deadZone, fun s raw h h' hrun => exec_deadZone h h' hrun⟩
  rintro c raw r rfl
  refine ⟨fun hs => ?_, fun hs => ?_, fun hs hs' => ?_⟩
  · rw [mapSample_hAbove c hs]
    have hclamp : min (raw.toNat - 2000) 2088 ≠ raw.toNat - 2000 ↔ 4089 ≤ raw.toNat := by omega
    have hone : 1 ≤ min (raw.toNat - 2000) 2088 := by omega
    have hle : min (raw.toNat - 2000) 2088 ≤ 2088 := Nat.min_le_right _ _
    exact ⟨rfl, rfl, hone, hle, rfl, rfl, le_levelOf (by decide) (by omega), levelOf_le hle, rfl,
      le_offsetUp _ _ _ _, offsetUp_le hle, hclamp⟩
  · rw [mapSample_hBelow c hs]
    have hone : 1 ≤ 1900 - raw.toNat := by omega
    have hle : 1900 - raw.toNat ≤ 1900 := Nat.sub_le _ _
    exact ⟨rfl, rfl, hone, hle, rfl, rfl, le_levelOf (by decide) (by omega), levelOf_le hle,
      offsetDown_eq_floor (by decide) hle le_rfl, rfl,
      Nat.le_of_lt_succ (offsetDown_lt (by decide) (by decide) hone (by decide))⟩
  · rw [mapSample_hDead c hs hs']
    exact ⟨rfl, rfl, rfl, rfl, rfl⟩

/-- Settles O34: each branch is its shape with its intensity and the divisor of the assignment. -/
theorem verticalMapper : Obligations.VerticalMapper := by
  unfold Obligations.VerticalMapper
  rintro c raw r rfl
  obtain ⟨habove, hbelow⟩ := vDivs_pos c.vDivs
  refine ⟨fun hs => ?_, fun hs => ?_⟩
  · rw [mapSample_vAbove c hs]
    have hle : min (raw.toNat - 2100) c.vDivs.above ≤ c.vDivs.above := Nat.min_le_right _ _
    refine ⟨rfl, rfl, rfl, rfl, offsetDown_eq_floor habove hle le_rfl, rfl, fun hlisted => ?_⟩
    rw [hlisted] at hle ⊢
    change min (raw.toNat - 2100) 1988 ≤ 1988 at hle
    have hone : 1 ≤ min (raw.toNat - 2100) 1988 := by omega
    have htwo : 2 ≤ levelOf (min (raw.toNat - 2100) 1988) 1988 :=
      le_levelOf (by decide) (by omega)
    exact ⟨rfl, hone, hle, htwo, levelOf_le hle,
      Nat.le_of_lt_succ (offsetDown_lt (by decide) (by decide) hone (by decide)), by omega⟩
  · rw [mapSample_vBelow c hs]
    refine ⟨rfl, rfl, rfl, rfl, rfl, fun hlisted => ?_, fun hswapped => ?_⟩
    · rw [hlisted]
      have hle : min (2100 - raw.toNat) 2100 ≤ 2100 := Nat.min_le_right _ _
      exact ⟨rfl, Nat.min_eq_left (Nat.sub_le _ _), levelOf_le hle, le_offsetUp _ _ _ _,
        offsetUp_le hle⟩
    · rw [hswapped]
      have hclamp : min (2100 - raw.toNat) 1988 ≠ 2100 - raw.toNat ↔ raw.toNat ≤ 111 := by omega
      exact ⟨rfl, hclamp⟩

/-! ## The default divisors and full scale -/

section Listed

variable {c : Config} {raw : Sample}

theorem mapSample_vAbove_listed (hv : c.vDivs = .listed) (h : 2100 < raw.toNat) :
    mapSample c .vertical raw = .falling .vAbove 30 (min (raw.toNat - 2100) 1988) 1988 := by
  rw [mapSample_vAbove c h, hv]
  rfl

/-- With the default divisor the clamp is inert below the centre (R98). -/
theorem mapSample_vBelow_listed (hv : c.vDivs = .listed) (h : raw.toNat ≤ 2100) :
    mapSample c .vertical raw = .rising .vBelow 30 (2100 - raw.toNat) 2100 := by
  rw [mapSample_vBelow c h, hv, VDivs.below, Nat.min_eq_left (Nat.sub_le _ _)]

/-- From 4088 on a horizontal sample is at full scale (R93). -/
theorem mapSample_horizontal_full (c : Config) (h : 4088 ≤ raw.toNat) :
    mapSample c .horizontal raw = .rising .hAbove 60 2088 2088 := by
  rw [mapSample_hAbove c (by omega), Nat.min_eq_right (by omega)]

/-- From 4088 on a vertical sample is at full scale, at the default divisor (R97). -/
theorem mapSample_vertical_full (hv : c.vDivs = .listed) (h : 4088 ≤ raw.toNat) :
    mapSample c .vertical raw = .falling .vAbove 30 1988 1988 := by
  rw [mapSample_vAbove_listed hv (by omega), Nat.min_eq_right (by omega)]

end Listed

/-- The floor of a falling branch's expression in the sample, as long as the clamp is not active
(R99, R106). -/
theorem offsetDown_sub_eq_floor (C : Nat) {a b d : Nat} (hba : b ≤ a) (hd : 0 < d)
    (hn : a - b ≤ d) :
    (offsetDown C C (a - b) d : ℤ) = ⌊(C : ℚ) - C * ((a : ℚ) - b) / d⌋ := by
  rw [offsetDown_eq_floor hd hn le_rfl, Nat.cast_sub hba]

/-- Unclamped, the vertical offset would fall to -1 beyond full scale (R99). -/
theorem unclamped_vertical_floor {s : Nat} (h : 4089 ≤ s) (h' : s ≤ 4095) :
    ⌊(30 : ℚ) - 30 * (s - 2100) / 1988⌋ = -1 := by
  have hlow : (4089 : ℚ) ≤ s := by exact_mod_cast h
  have hhigh : (s : ℚ) ≤ 4095 := by exact_mod_cast h'
  rw [Int.floor_eq_iff]
  push_cast
  constructor <;> linarith

/-- What the clamp changes at 4089..4095, at the default divisors (R99). -/
theorem clamp_changes {c : Config} {raw : Sample} (hv : c.vDivs = .listed)
    (h : 4089 ≤ raw.toNat) :
    (mapSample c .horizontal raw).level = 4096 ∧ (mapSample c .horizontal raw).off = 120 ∧
    (mapSample c .vertical raw).level = 4096 ∧ (mapSample c .vertical raw).off = 0 ∧
    4097 ≤ 4096 * (raw.toNat - 2000) / 2088 ∧ 4096 * (raw.toNat - 2000) / 2088 ≤ 4109 ∧
    4098 ≤ 4096 * (raw.toNat - 2100) / 1988 ∧ 4096 * (raw.toNat - 2100) / 1988 ≤ 4110 ∧
    60 + 60 * (raw.toNat - 2000) / 2088 = 120 ∧
    ⌊(30 : ℚ) - 30 * (raw.toNat - 2100) / 1988⌋ = -1 := by
  have hraw : raw.toNat < 4096 := raw.isLt
  rw [mapSample_horizontal_full c (by omega), mapSample_vertical_full hv (by omega)]
  exact ⟨rfl, rfl, rfl, rfl, by omega, by omega, by omega, by omega, by omega,
    unclamped_vertical_floor h (by omega)⟩

/-- Settles O35: the bounds are those of an intensity of at most its divisor; below 4089 the
intensity is the unclamped one, and from there on full scale. -/
theorem clampBoundsTheMapper : Obligations.ClampBoundsTheMapper := by
  unfold Obligations.ClampBoundsTheMapper
  refine ⟨?_, fun c raw hv => ?_⟩
  · rintro c axis raw r rfl
    have h := reads_mapSample c axis raw
    obtain ⟨hlow, hhigh⟩ := h.frac_range
    exact ⟨fun d hd => (h.of_some hd).right.left, hlow, hhigh, mapSample_level_le c axis raw,
      h.off_range⟩
  · refine ⟨fun hs => ?_, fun hs => ?_, fun hs => ?_, fun hs => ?_, fun hs hlt => ?_,
      fun hs hlt => ?_, fun hs => ?_, fun hs => ?_, clamp_changes hv⟩
    · rw [mapSample_hAbove c hs]
      change 4096 * min (raw.toNat - 2000) 2088 / 2088 ≠ _ ↔ _
      omega
    · rw [mapSample_vAbove_listed hv hs]
      change 4096 * min (raw.toNat - 2100) 1988 / 1988 ≠ _ ↔ _
      omega
    · rw [mapSample_hBelow c hs]
      rfl
    · rw [mapSample_vBelow_listed hv hs]
      rfl
    · rw [mapSample_hAbove c hs, Nat.min_eq_left (by omega)]
      rfl
    · rw [mapSample_vAbove_listed hv hs, Nat.min_eq_left (by omega)]
      exact offsetDown_sub_eq_floor 30 hs.le (by decide) (by omega)
    · rw [mapSample_hBelow c hs]
      exact offsetDown_sub_eq_floor 60 hs.le (by decide) (Nat.sub_le _ _)
    · rw [mapSample_vBelow_listed hv hs]
      rfl

/-! ## The curves -/

/-- The horizontal offset never falls as the sample grows: below the dead zone it is at most the
centre, above it at least (R107). -/
theorem mapSample_horizontal_off_mono (c : Config) {a b : Sample} (h : a.toNat ≤ b.toNat) :
    (mapSample c .horizontal a).off ≤ (mapSample c .horizontal b).off := by
  rcases Nat.lt_or_ge b.toNat 1900 with hb | hb
  · rw [mapSample_hBelow c hb, mapSample_hBelow c (by omega)]
    exact offsetDown_anti _ _ _ (by omega)
  · rcases Nat.lt_or_ge 2000 a.toNat with ha | ha
    · rw [mapSample_hAbove c ha, mapSample_hAbove c (by omega)]
      exact offsetUp_mono _ _ _ (by omega)
    · exact (mapSample_off_le_center c ha).trans (center_le_mapSample_off c hb)

/-- Settles O39: within a branch everything is monotone in the intensity, and the offsets of the
branches meet at the centre. -/
theorem horizontalCurve : Obligations.HorizontalCurve := by
  unfold Obligations.HorizontalCurve
  rintro c H rfl
  refine ⟨fun a h h' => ?_, fun a b ha hab => ?_, fun a b ha hab hb => ?_, fun a ha => ?_, ?_,
    fun a b hab hb => ?_, ?_, rfl, ?_, fun a b => mapSample_horizontal_off_mono c⟩
  · rw [mapSample_hDead c h h']
    exact ⟨rfl, rfl⟩
  · have hn : min (a.toNat - 2000) 2088 ≤ min (b.toNat - 2000) 2088 := by omega
    rw [mapSample_hAbove c ha, mapSample_hAbove c (ha.trans_le hab)]
    exact ⟨frac_le_frac _ hn, levelOf_mono _ hn, offsetUp_mono _ _ _ hn⟩
  · have hn : min (a.toNat - 2000) 2088 < min (b.toNat - 2000) 2088 := by omega
    rw [mapSample_hAbove c ha, mapSample_hAbove c (ha.trans hab)]
    exact frac_lt_frac (by decide) hn
  · rw [mapSample_horizontal_full c ha]
    exact ⟨frac_self (by decide), rfl⟩
  · rw [mapSample_hAbove c (by decide)]
    norm_num
  · have hn : 1900 - b.toNat < 1900 - a.toNat := by omega
    rw [mapSample_hBelow c hb, mapSample_hBelow c (hab.trans hb)]
    exact ⟨frac_lt_frac (by decide) hn, levelOf_mono _ hn.le, offsetDown_anti _ _ _ hn.le⟩
  · rw [mapSample_hBelow c (by decide)]
    exact frac_self (by decide)
  · rw [mapSample_hBelow c (by decide)]
    norm_num

/-- The vertical offset never grows with the sample: above the centre of the stick it is at most 30,
below it at least (R108). -/
theorem mapSample_vertical_off_anti (c : Config) {a b : Sample} (h : a.toNat ≤ b.toNat) :
    (mapSample c .vertical b).off ≤ (mapSample c .vertical a).off := by
  rcases Nat.lt_or_ge 2100 a.toNat with ha | ha
  · rw [mapSample_vAbove c ha, mapSample_vAbove c (ha.trans_le h)]
    exact offsetDown_anti _ _ _ (by omega)
  · rw [mapSample_vBelow c ha]
    rcases Nat.lt_or_ge 2100 b.toNat with hb | hb
    · rw [mapSample_vAbove c hb]
      exact (offsetDown_le _ _ _ _).trans (le_offsetUp _ _ _ _)
    · rw [mapSample_vBelow c hb]
      exact offsetUp_mono _ _ _ (by omega)

/-- Equal steps of the sample are equal steps of the fraction (R108). -/
theorem frac_sub_frac {n m k : Nat} (d : Nat) (h : m = n + k) :
    (m : ℚ) / d - (n : ℚ) / d = (k : ℚ) / d := by
  rw [h, Nat.cast_add]
  ring

/-- Settles O40: within a branch the fraction is the intensity over the divisor, a straight line in
the sample until the clamp; the offsets of the branches meet at 30. -/
theorem verticalCurve : Obligations.VerticalCurve := by
  unfold Obligations.VerticalCurve
  rintro c V hv rfl
  have hcenter : mapSample c .vertical 2100#12 = .rising .vBelow 30 0 2100 :=
    mapSample_vBelow_listed hv (by decide)
  have hbottom : mapSample c .vertical 0#12 = .rising .vBelow 30 2100 2100 :=
    mapSample_vBelow_listed hv (by decide)
  refine ⟨congrArg Reading.branch hcenter, ?_, fun a b hab hb => ?_, ?_,
    fun a b ha hab hb => ?_, fun a ha => ?_, fun a b => mapSample_vertical_off_anti c,
    congrArg Reading.off hbottom, (vertical_off_at_center c).right, congrArg Reading.off hcenter⟩
  · rw [hcenter]
    norm_num
  · have hstep : 2100 - a.toNat = 2100 - b.toNat + (b.toNat - a.toNat) := by omega
    have hn : 2100 - b.toNat < 2100 - a.toNat := by omega
    rw [mapSample_vBelow_listed hv hb, mapSample_vBelow_listed hv (hab.le.trans hb),
      ← Nat.cast_sub hab.le]
    exact ⟨frac_sub_frac 2100 hstep, frac_lt_frac (by decide) hn⟩
  · rw [hbottom]
    exact frac_self (by decide)
  · have hstep : min (b.toNat - 2100) 1988 =
        min (a.toNat - 2100) 1988 + (b.toNat - a.toNat) := by omega
    have hn : min (a.toNat - 2100) 1988 < min (b.toNat - 2100) 1988 := by omega
    rw [mapSample_vAbove_listed hv ha, mapSample_vAbove_listed hv (ha.trans hab),
      ← Nat.cast_sub hab.le]
    exact ⟨frac_sub_frac 1988 hstep, frac_lt_frac (by decide) hn⟩
  · rw [mapSample_vertical_full hv ha]
    exact ⟨frac_self (by decide), rfl⟩

/-! ## The statements about SMP_H, SMP_V and the result port -/

/-- Settles O42: the level and the offset are the horizontal reading's, which meets the contract;
the gate decides what becomes of the level. -/
theorem smpHMapsAndGates : Obligations.SmpHMapsAndGates := by
  unfold Obligations.SmpHMapsAndGates
  refine ⟨fun tsw w hbit => decode_smp_of_bit tsw .horizontal hbit, fun raw s =>
    ⟨_, _, mapSample_hContract s.cfg raw, mapSample_level_le _ _ _, mapSample_off_le _ _ _,
      fun hrun hgate => ?_, fun hrun hgate => ?_, fun hprog => ?_⟩⟩
  · exact congrArg Host.Outcome.next (State.sample_open .horizontal raw hrun hgate)
  · exact congrArg Host.Outcome.next (State.sample_closed .horizontal raw hrun hgate)
  · exact congrArg Host.Outcome.next (State.inRun_prog _ hprog)

/-- Settles O43: the level and the offset are the vertical reading's, which meets the contract; the
gate decides what becomes of the level. -/
theorem smpVMapsAndGates : Obligations.SmpVMapsAndGates := by
  unfold Obligations.SmpVMapsAndGates
  refine ⟨fun tsw w hbit => decode_smp_of_bit tsw .vertical hbit, fun raw s =>
    ⟨_, _, mapSample_vContract s.cfg raw, mapSample_level_le _ _ _, mapSample_off_le _ _ _,
      fun hrun hgate => ?_, fun hrun hgate => ?_, fun hprog => ?_⟩⟩
  · exact congrArg Host.Outcome.next (State.sample_open .vertical raw hrun hgate)
  · exact congrArg Host.Outcome.next (State.sample_closed .vertical raw hrun hgate)
  · exact congrArg Host.Outcome.next (State.inRun_prog _ hprog)

/-- Settles O44: the result port shows what the sample phase drives, since the event phase keeps
the outputs. -/
theorem resultPort : Obligations.ResultPort := by
  unfold Obligations.ResultPort
  refine fun s => ⟨_, step_eq_afterCycle s, fun p rest hin hrst hsmp hrun => ?_, fun hnone => ?_⟩
  · have hoff := mapSample_off_le s.cfg (Axis.ofBit p.smpAxis) p.smpRaw
    refine ⟨_, rfl, ?_, fun hbit => ?_, fun hbit => ?_⟩
    · rw [State.afterCycle_eq_phases hin hrst, State.eventPhase_out, State.samplePhase, if_pos hsmp]
      exact State.sample_res (s := s.withInputs rest) _ _ hrun
    · rwa [show maxOff (Axis.ofBit p.smpAxis) = 120 by rw [hbit]; rfl] at hoff
    · rwa [show maxOff (Axis.ofBit p.smpAxis) = 60 by rw [hbit]; rfl] at hoff
  · rcases s.afterCycle_cases with ⟨-, heq⟩ | ⟨p, rest, hin, ⟨-, heq⟩ | ⟨hrst, heq⟩⟩ <;> rw [heq]
    · rfl
    · rfl
    · rw [State.eventPhase_out]
      exact State.samplePhase_res_none
        ((hnone p rest hin).resolve_left (by simp [hrst]))

end Sys2Proof.Machine

/-!
# The gate, the write port and the duty registers

A cycle strobes the level it writes, and writes it for a sample in RUN with the gate open only
(42_pwm_gate.md R120, R121). So the duty registers follow from the strobes of a run (R122), and a
closed gate holds them (R123).
-/

namespace Sys2Proof.Machine

/-! ## What a cycle keeps -/

@[simp] theorem State.afterCycle_cfg (s : State) : s.afterCycle.cfg = s.cfg := by
  rcases s.afterCycle_cases with ⟨-, heq⟩ | ⟨p, rest, -, ⟨-, heq⟩ | ⟨-, heq⟩⟩ <;> simp [heq]

/-- No RESET is still to come. -/
def State.WithoutReset (s : State) : Prop := ∀ p ∈ s.inputs, p.rst = false

theorem State.WithoutReset.afterCycle {s : State} (h : s.WithoutReset) :
    s.afterCycle.WithoutReset := by
  intro p hp
  rw [State.afterCycle_inputs] at hp
  exact h p (List.mem_of_mem_tail hp)

/-! ## The multiplexer and the write port -/

theorem Regs.duty_setDuty (r : Regs) (a b : Axis) (l : Level) :
    (r.setDuty a l).duty b = if a = b then l else r.duty b := by
  split
  · next h => rw [← h, Regs.duty_setDuty_same]
  · next h => exact r.duty_setDuty_other a b l (Ne.symm h)

/-- In RUN the gate chooses between the sample's level and the level held (R122). -/
theorem State.sample_regs {s : State} (axis : Axis) (raw : Sample) (hrun : s.regs.mode = .run) :
    (s.sample axis raw).regs = if s.regs.pwmEn = true
      then s.regs.setDuty axis (mapSample s.cfg axis raw).levelBits else s.regs := by
  cases hgate : s.regs.pwmEn with
  | true => rw [State.sample_open axis raw hrun hgate]; rfl
  | false => rw [State.sample_closed axis raw hrun hgate]; rfl

section SamplePhase

variable {s : State} {p : InputPorts}

/-- A sample that passes the open gate in RUN is strobed with its axis and level, and held (R121,
R122). -/
theorem State.samplePhase_open (hsmp : p.smpValid = true) (hrun : s.regs.mode = .run)
    (hgate : s.regs.pwmEn = true) :
    (s.samplePhase p).out.pwm = some ⟨Axis.ofBit p.smpAxis,
      (mapSample s.cfg (Axis.ofBit p.smpAxis) p.smpRaw).levelBits⟩ := by
  rw [State.samplePhase, if_pos hsmp, State.sample_open _ _ hrun hgate]

/-- Without a sample, in PROG or with the gate closed the sample phase strobes nothing (R121). -/
theorem State.samplePhase_shut
    (h : p.smpValid = false ∨ s.regs.mode = .prog ∨ s.regs.pwmEn = false) :
    (s.samplePhase p).out.pwm = none := by
  rcases s.samplePhase_cases p with ⟨hsmp, hrun, hgate, -⟩ | ⟨-, hpwm⟩
  · simp [hsmp, hrun, hgate] at h
  · exact hpwm

end SamplePhase

/-- The sample phase holds what it strobes, and changes no register when it strobes nothing. -/
theorem State.samplePhase_strobe_cases (s : State) (p : InputPorts) :
    (∃ w, (s.samplePhase p).out.pwm = some w ∧
      (s.samplePhase p).regs = s.regs.setDuty w.axis w.level) ∨
    ((s.samplePhase p).out.pwm = none ∧ (s.samplePhase p).regs = s.regs) := by
  rcases s.samplePhase_cases p with ⟨hsmp, hrun, hgate, hregs⟩ | ⟨hregs, hpwm⟩
  · exact .inl ⟨_, State.samplePhase_open hsmp hrun hgate, hregs⟩
  · exact .inr ⟨hpwm, hregs⟩

/-- The event phase writes the register of neither axis. -/
theorem State.eventPhase_duty (s : State) (p : InputPorts) (axis : Axis) :
    (s.eventPhase p).regs.duty axis = s.regs.duty axis := by
  obtain ⟨hH, hV⟩ := s.eventPhase_duties p
  cases axis with
  | horizontal => exact hH
  | vertical => exact hV

/-! ## The strobes of a cycle -/

theorem mode_ne_run_iff {m : Mode} : m ≠ .run ↔ m = .prog := by cases m <;> simp

section OpenSample

variable {s u : State} {p : InputPorts} {rest : List InputPorts}

theorem openSample_iff (hin : s.inputs = p :: rest) : openSample (s, u) = true ↔
    p.rst = false ∧ p.smpValid = true ∧ s.regs.mode = .run ∧ s.regs.pwmEn = true := by
  simp [openSample, hin, and_assoc]

theorem openSample_eq_false_iff (hin : s.inputs = p :: rest) : openSample (s, u) = false ↔
    p.rst = true ∨ p.smpValid = false ∨ s.regs.mode = .prog ∨ s.regs.pwmEn = false := by
  simp only [openSample, hin, Bool.and_eq_false_iff, Bool.not_eq_false', decide_eq_false_iff_not,
    ← ne_eq, mode_ne_run_iff, or_assoc]

end OpenSample

/-- A cycle with a sample, not RESET, in RUN with the gate open strobes the sample's level
(R121). -/
theorem State.afterCycle_pwm_of_open {s : State} {p : InputPorts} {rest : List InputPorts}
    (hin : s.inputs = p :: rest) (hrst : p.rst = false) (hsmp : p.smpValid = true)
    (hrun : s.regs.mode = .run) (hgate : s.regs.pwmEn = true) :
    s.afterCycle.out.pwm = some ⟨Axis.ofBit p.smpAxis,
      (mapSample s.cfg (Axis.ofBit p.smpAxis) p.smpRaw).levelBits⟩ := by
  rw [State.afterCycle_eq_phases hin hrst, State.eventPhase_out]
  exact State.samplePhase_open (s := s.withInputs rest) hsmp hrun hgate

/-- No other cycle strobes (R121). -/
theorem State.afterCycle_pwm_of_shut {s : State}
    (h : ∀ p rest, s.inputs = p :: rest →
      p.rst = true ∨ p.smpValid = false ∨ s.regs.mode = .prog ∨ s.regs.pwmEn = false) :
    s.afterCycle.out.pwm = none := by
  rcases s.afterCycle_cases with ⟨-, heq⟩ | ⟨p, rest, hin, ⟨-, heq⟩ | ⟨hrst, heq⟩⟩ <;> rw [heq]
  · rfl
  · rfl
  · rw [State.eventPhase_out]
    exact State.samplePhase_shut (s := s.advance)
      ((h p rest hin).resolve_left (by simp [hrst]))

/-- A cycle strobes exactly when it executes a sample in RUN with the gate open (R121). -/
theorem State.afterCycle_strobes_eq (s : State) :
    s.afterCycle.out.pwm.isSome = openSample (s, s.afterCycle) := by
  cases hopen : openSample (s, s.afterCycle) with
  | false =>
    rw [State.afterCycle_pwm_of_shut fun p rest hin => (openSample_eq_false_iff hin).1 hopen]
    rfl
  | true =>
    cases hin : s.inputs with
    | nil => simp [openSample, hin] at hopen
    | cons p rest =>
      obtain ⟨hrst, hsmp, hrun, hgate⟩ := (openSample_iff hin).1 hopen
      rw [State.afterCycle_pwm_of_open hin hrst hsmp hrun hgate]
      rfl

/-- Without RESET each duty register is the level the cycle strobed for its axis, or holds
(R122). -/
theorem State.afterCycle_duty {s : State} (h : s.WithoutReset) (axis : Axis) :
    s.afterCycle.regs.duty axis =
      (writtenLevel axis (s, s.afterCycle)).getD (s.regs.duty axis) := by
  unfold writtenLevel
  rcases s.afterCycle_cases with ⟨-, heq⟩ | ⟨p, rest, hin, ⟨hrst, -⟩ | ⟨-, heq⟩⟩
  · rw [heq]; rfl
  · simp [h p (by simp [hin])] at hrst
  · rw [heq, State.eventPhase_duty, State.eventPhase_out]
    rcases s.advance.samplePhase_strobe_cases p with ⟨w, hpwm, hregs⟩ | ⟨hpwm, hregs⟩
    · simp only [hpwm, hregs, Regs.duty_setDuty, State.advance_regs]
      split <;> rfl
    · simp only [hpwm, hregs, State.advance_regs, Option.getD_none]

/-- With the gate closed a cycle without RESET strobes nothing and both registers hold (R123). -/
theorem State.afterCycle_of_closed {s : State} (h : s.WithoutReset)
    (hgate : s.regs.pwmEn = false) :
    s.afterCycle.out.pwm = none ∧ ∀ axis, s.afterCycle.regs.duty axis = s.regs.duty axis := by
  have hpwm : s.afterCycle.out.pwm = none :=
    State.afterCycle_pwm_of_shut fun _ _ _ => .inr (.inr (.inr hgate))
  refine ⟨hpwm, fun axis => ?_⟩
  rw [State.afterCycle_duty h, writtenLevel, hpwm]
  rfl

/-! ## The strobes of a run -/

/-- Every cycle of a run is `State.afterCycle`. -/
theorem eq_afterCycle_of_mem_cycles {k : Nat} {s : State} {c : State × State}
    (hc : c ∈ cycles k s) : c.2 = c.1.afterCycle :=
  (cycles_invariant (fun _ => True) (fun _ _ => trivial) trivial c hc).right

theorem getLast?_cycles (k : Nat) (s : State) :
    ((cycles k s).getLast?.map Prod.snd).getD s = State.afterCycle^[k] s := by
  induction k generalizing s with
  | zero => rfl
  | succ k ih =>
    rw [cycles_succ, Function.iterate_succ_apply, ← ih, List.getLast?_cons]
    cases (cycles k s.afterCycle).getLast? <;> rfl

theorem State.afterRun_eq_iterate (s : State) (ps : List InputPorts) :
    s.afterRun ps = State.afterCycle^[ps.length] (s.withInputs ps) := by
  rw [← getLast?_cycles, State.afterRun, runOf]
  cases ps with
  | nil => rfl
  | cons p rest => rw [List.length_cons, cycles_succ, List.getLast?_cons]; rfl

/-- After any number of cycles without RESET a duty register is the last level strobed for its
axis, or holds the level it had (R122). -/
theorem duty_iterate_afterCycle {s : State} (h : s.WithoutReset) (axis : Axis) (k : Nat) :
    (State.afterCycle^[k] s).regs.duty axis =
      ((cycles k s).filterMap (writtenLevel axis)).getLast?.getD (s.regs.duty axis) := by
  induction k generalizing s with
  | zero => rfl
  | succ k ih =>
    rw [cycles_succ, Function.iterate_succ_apply, ih h.afterCycle, State.afterCycle_duty h]
    cases hw : writtenLevel axis (s, s.afterCycle) with
    | none => rw [List.filterMap_cons_none hw]; rfl
    | some l => rw [List.filterMap_cons_some hw, List.getLast?_cons]; rfl

/-- As long as the gate stays closed and no RESET comes, nothing is strobed and both registers
hold (R123). -/
theorem duty_of_mem_cycles_of_closed {k : Nat} {s : State} (h : s.WithoutReset)
    (hgate : s.regs.pwmEn = false) (hstays : ∀ c ∈ cycles k s, c.2.regs.pwmEn = false) :
    ∀ c ∈ cycles k s, c.2.out.pwm = none ∧ ∀ axis, c.2.regs.duty axis = s.regs.duty axis := by
  induction k generalizing s with
  | zero => simp [cycles]
  | succ k ih =>
    rw [cycles_succ, List.forall_mem_cons] at hstays ⊢
    obtain ⟨hpwm, hduty⟩ := State.afterCycle_of_closed h hgate
    refine ⟨⟨hpwm, hduty⟩, fun c hc => ?_⟩
    obtain ⟨hlater, hheld⟩ := ih h.afterCycle hstays.left hstays.right c hc
    exact ⟨hlater, fun axis => (hheld axis).trans (hduty axis)⟩

/-! ## The two flags -/

/-- The state with another value in `led_on`. -/
def State.withLedOn (s : State) (b : Bool) : State := { s with regs := { s.regs with ledOn := b } }

/-- The state with another value in `pwm_en`. -/
def State.withPwmEn (s : State) (b : Bool) : State := { s with regs := { s.regs with pwmEn := b } }

/-- The LED flag has no part in EV_PWM (R127). -/
theorem State.event_pwm_withLedOn (s : State) (b : Bool) (t : Nat) :
    (s.withLedOn b).event .pwm t = (s.event .pwm t).withLedOn b := by
  unfold State.event State.inRun State.debounced State.withLedOn
  cases s.regs.mode with
  | run => cases accepted s.cfg t s.regs.lastTs <;> rfl
  | prog => rfl

/-- The gate has no part in EV_LED (R127). -/
theorem State.event_led_withPwmEn (s : State) (b : Bool) (t : Nat) :
    (s.withPwmEn b).event .led t = (s.event .led t).withPwmEn b := by
  unfold State.event State.inRun State.debounced State.withPwmEn
  cases s.regs.mode with
  | run => cases accepted s.cfg t s.regs.lastTs <;> rfl
  | prog => rfl

/-- EV_PWM keeps the mode (R75). -/
theorem State.event_pwm_mode (s : State) (t : Nat) : (s.event .pwm t).regs.mode = s.regs.mode := by
  rcases s.event_cases .pwm t with heq | ⟨-, ⟨hsrc, -⟩ | ⟨hsrc, -⟩ | ⟨-, -, heq⟩⟩
  · rw [heq]; rfl
  · cases hsrc
  · cases hsrc
  · rw [heq]; rfl

/-- The sample phase writes neither flag (R127). -/
theorem State.samplePhase_flags (s : State) (p : InputPorts) :
    (s.samplePhase p).regs.ledOn = s.regs.ledOn ∧ (s.samplePhase p).regs.pwmEn = s.regs.pwmEn := by
  rcases s.samplePhase_cases p with ⟨-, -, -, hregs⟩ | ⟨hregs, -⟩ <;> simp [hregs]

/-- The window is tested on the low TSW bits of the driven timestamp (R31, R71). -/
theorem elapsedInt_of_past_window {c : Config} {t last : Nat} (h : debounceUs < elapsed c t last) :
    200000 < elapsedInt c (t % 2 ^ c.tsw) last := by
  have hport : portTime c (t % 2 ^ c.tsw) = portTime c t := Nat.mod_mod _ _
  rw [← accepted_iff_elapsedInt, accepted_iff, elapsed, hport]
  exact h

/-- The cycle presents the event of source `src` in RUN, past the window (R71). -/
def InputPorts.TogglesAt (p : InputPorts) (s : State) (src : EvSource) : Prop :=
  p.evValid = true ∧ p.evSrc = src.bits ∧ s.regs.mode = .run ∧
    200000 < elapsedInt s.cfg (p.evTime % 2 ^ s.cfg.tsw) s.regs.lastTs

/-- Of a cycle without RESET only an accepted EV_LED writes `led_on`, and only an accepted EV_PWM
`pwm_en` (R127). -/
theorem State.phases_flags (s : State) (p : InputPorts) :
    (((s.samplePhase p).eventPhase p).regs.ledOn = s.regs.ledOn ∨ p.TogglesAt s .led) ∧
    (((s.samplePhase p).eventPhase p).regs.pwmEn = s.regs.pwmEn ∨ p.TogglesAt s .pwm) := by
  obtain ⟨hled, hpwm⟩ := s.samplePhase_flags p
  rcases (s.samplePhase p).eventPhase_cases p with hregs | ⟨hev, hrun, hwrite⟩
  · rw [hregs]; exact ⟨.inl hled, .inl hpwm⟩
  · rw [State.samplePhase_mode] at hrun
    rw [State.samplePhase_cfg, State.samplePhase_lastTs] at hwrite
    rcases hwrite with ⟨-, hregs⟩ | ⟨hsrc, hpast, hregs⟩ | ⟨hsrc, hpast, hregs⟩ <;> rw [hregs]
    · exact ⟨.inl hled, .inl hpwm⟩
    · exact ⟨.inr ⟨hev, hsrc, hrun, elapsedInt_of_past_window hpast⟩, .inl hpwm⟩
    · exact ⟨.inl hled, .inr ⟨hev, hsrc, hrun, elapsedInt_of_past_window hpast⟩⟩

/-- A flag changes only under RESET or its own accepted toggle (R127). -/
theorem State.afterCycle_flags (s : State) :
    (s.afterCycle.regs.ledOn ≠ s.regs.ledOn →
      ∃ p rest, s.inputs = p :: rest ∧ (p.rst = true ∨ p.TogglesAt s .led)) ∧
    (s.afterCycle.regs.pwmEn ≠ s.regs.pwmEn →
      ∃ p rest, s.inputs = p :: rest ∧ (p.rst = true ∨ p.TogglesAt s .pwm)) := by
  rcases s.afterCycle_cases with ⟨-, heq⟩ | ⟨p, rest, hin, ⟨hrst, -⟩ | ⟨-, heq⟩⟩
  · simp [heq]
  · exact ⟨fun _ => ⟨p, rest, hin, .inl hrst⟩, fun _ => ⟨p, rest, hin, .inl hrst⟩⟩
  · rw [heq]
    obtain ⟨hled, hpwm⟩ := s.advance.phases_flags p
    exact ⟨fun hne => ⟨p, rest, hin, .inr (hled.resolve_left hne)⟩,
      fun hne => ⟨p, rest, hin, .inr (hpwm.resolve_left hne)⟩⟩

/-! ## The statements of 42_pwm_gate.md -/

/-- Settles O46: a cycle strobes exactly when it executes a sample in RUN with the gate open, so
the two counts of a run agree cycle by cycle. -/
theorem strobesCountOpenSamples : Obligations.StrobesCountOpenSamples := by
  unfold Obligations.StrobesCountOpenSamples
  refine ⟨fun s => ⟨_, step_eq_afterCycle s, fun p rest => State.afterCycle_pwm_of_open,
    State.afterCycle_pwm_of_shut⟩, fun s ps => ⟨runOf_length s ps, ?_⟩⟩
  refine List.countP_congr fun ⟨before, after⟩ hc => ?_
  obtain rfl : after = before.afterCycle := eq_afterCycle_of_mem_cycles hc
  exact Bool.eq_iff_iff.1 before.afterCycle_strobes_eq

/-- Settles O47, by induction over the cycles of the run: each either strobes the level it writes
or holds. -/
theorem dutyHoldsTheLastWrite : Obligations.DutyHoldsTheLastWrite := by
  unfold Obligations.DutyHoldsTheLastWrite
  refine ⟨fun s u raw hrun => ⟨?_, ?_⟩, fun s u t hexec => ?_, fun s ps axis hreset hrst =>
    ⟨runOf_length s ps, ?_⟩⟩
  · rintro ⟨⟩
    rw [State.sample_regs .horizontal raw hrun]
    split <;> exact ⟨rfl, rfl⟩
  · rintro ⟨⟩
    rw [State.sample_regs .vertical raw hrun]
    split <;> exact ⟨rfl, rfl⟩
  · obtain ⟨src, rfl⟩ : ∃ src, s.event src t = u := by
      rcases hexec with h | h | h | h
      · exact ⟨.none, Host.Outcome.next.inj h⟩
      · exact ⟨.prog, Host.Outcome.next.inj h⟩
      · exact ⟨.led, Host.Outcome.next.inj h⟩
      · exact ⟨.pwm, Host.Outcome.next.inj h⟩
    exact s.event_duties src t
  · have hzero : (s.withInputs ps).regs.duty axis = 0#13 := by
      rw [State.withInputs, hreset]; cases axis <;> rfl
    rw [State.afterRun_eq_iterate, duty_iterate_afterCycle (s := s.withInputs ps) hrst, hzero]
    rfl

/-- Settles O45: in RUN the gate alone decides between `State.sample_open` and
`State.sample_closed`. -/
theorem gateDecision : Obligations.GateDecision := by
  unfold Obligations.GateDecision
  intro s axis raw i hi hrun
  obtain rfl : i = axis.instr raw := by rcases hi with ⟨rfl, rfl⟩ | ⟨rfl, rfl⟩ <;> rfl
  refine ⟨_, exec_axisInstr axis raw s, fun hgate => ?_, fun hgate => ?_⟩
  · rw [State.sample_open axis raw hrun hgate]
    exact ⟨rfl, Regs.duty_setDuty_same _ _ _⟩
  · rw [State.sample_closed axis raw hrun hgate]
    exact ⟨rfl, rfl⟩

/-- Settles O48: an event writes no duty register, and a run under a closed gate holds both, by
induction over its cycles. -/
theorem closedGateHoldsTheLevels : Obligations.ClosedGateHoldsTheLevels := by
  unfold Obligations.ClosedGateHoldsTheLevels
  refine ⟨fun s u t hexec => ?_, fun s ps hgate hrst hstays =>
    ⟨runOf_length s ps, fun c hc => ?_⟩⟩
  · obtain rfl : s.event .pwm t = u := Host.Outcome.next.inj hexec
    obtain ⟨hH, hV⟩ := s.event_duties .pwm t
    exact ⟨hH, hV, by rw [State.event_out]; rfl⟩
  · obtain ⟨hpwm, hduty⟩ :=
      duty_of_mem_cycles_of_closed (s := s.withInputs ps) hrst hgate hstays c hc
    exact ⟨hduty .horizontal, hduty .vertical, hpwm⟩

/-- Settles O49: the sample under the closed gate and the event both leave the duty registers, and
the next sample is one under an open gate. -/
theorem openingTheGateWritesNothing : Obligations.OpeningTheGateWritesNothing := by
  unfold Obligations.OpeningTheGateWritesNothing
  intro s a b axis mk raw raw' t hmk hrun hgate hsmp hev hopen
  obtain rfl : mk = axis.instr := by rcases hmk with ⟨rfl, rfl⟩ | ⟨rfl, rfl⟩ <;> rfl
  obtain rfl : s.sample axis raw = a :=
    Host.Outcome.next.inj ((exec_axisInstr axis raw s).symm.trans hsmp)
  obtain rfl : (s.sample axis raw).event .pwm t = b := Host.Outcome.next.inj hev
  have hregs : (s.sample axis raw).regs = s.regs := by
    rw [State.sample_closed axis raw hrun hgate]
  obtain ⟨hH, hV⟩ := (s.sample axis raw).event_duties .pwm t
  have hstill : ((s.sample axis raw).event .pwm t).regs.mode = .run := by
    rw [State.event_pwm_mode, hregs, hrun]
  refine ⟨by rw [State.event_out]; rfl, by rw [hH, hregs], by rw [hV, hregs], _,
    exec_axisInstr axis raw' _, ?_⟩
  rw [State.sample_open axis raw' hstill hopen, State.event_cfg, State.sample_cfg]
  exact ⟨rfl, Regs.duty_setDuty_same _ _ _⟩

/-- Settles O50: each toggle commutes with a change of the other flag, and of everything a cycle
can do only RESET and a flag's own accepted toggle write it. -/
theorem onlyItsToggleAndResetChangeAFlag : Obligations.OnlyItsToggleAndResetChangeAFlag := by
  unfold Obligations.OnlyItsToggleAndResetChangeAFlag
  refine ⟨fun s u t b => ⟨?_, ?_⟩, fun s u hstep _ => ?_⟩
  · rintro ⟨⟩
    exact congrArg Host.Outcome.next (s.event_pwm_withLedOn b t)
  · rintro ⟨⟩
    exact congrArg Host.Outcome.next (s.event_led_withPwmEn b t)
  · obtain rfl := step_eq_next_iff.1 hstep
    exact s.afterCycle_flags.symm

/-- Settles O57: the register-driven ports are fields of the state the cycle begins with, and no
cycle writes a parameter. -/
theorem outputsFollowTheRegisters : Obligations.OutputsFollowTheRegisters := by
  unfold Obligations.OutputsFollowTheRegisters
  intro s t u hstep _
  obtain rfl := step_eq_next_iff.1 hstep
  exact ⟨rfl, rfl, rfl, rfl, rfl, rfl, decide_eq_true_iff, decide_eq_true_iff, rfl,
    congrArg Config.invertConst s.afterCycle_cfg⟩

end Sys2Proof.Machine

/-!
# Totality, and PROG until RESET

No operation faults or is refused (60_exceptions.md R135). In PROG both phases of a cycle are `nop`,
so a cycle without RESET only takes its input away, and a run without RESET holds every register and
drives no strobe (R143).
-/

namespace Sys2Proof.Machine

/-! ## PROG ignores the ports -/

section Prog

variable {s : State}

/-- Every event is a `nop` in PROG (R70, R143). -/
theorem State.event_of_prog (src : EvSource) (t : Nat) (hprog : s.regs.mode = .prog) :
    s.event src t = s.nop := by
  rcases s.event_cases src t with heq | ⟨hrun, -⟩
  · exact heq
  · simp [hprog] at hrun

/-- Every sample is a `nop` in PROG (R143). -/
theorem State.sample_of_prog (axis : Axis) (raw : Sample) (hprog : s.regs.mode = .prog) :
    s.sample axis raw = s.nop :=
  State.inRun_prog _ hprog

theorem State.samplePhase_of_prog (p : InputPorts) (hprog : s.regs.mode = .prog) :
    s.samplePhase p = s.nop := by
  unfold State.samplePhase
  split
  · exact State.sample_of_prog _ _ hprog
  · rfl

theorem State.eventPhase_of_prog (p : InputPorts) (hprog : s.regs.mode = .prog) :
    s.eventPhase p = s := by
  unfold State.eventPhase
  split
  · rw [State.event_of_prog _ _ hprog]; rfl
  · rfl

/-- In PROG a cycle without RESET is an idle cycle, whatever it presents (R143). -/
theorem State.ProgWithoutReset.afterCycle_eq (h : s.ProgWithoutReset) :
    s.afterCycle = s.advance.nop := by
  obtain ⟨hprog, hrst⟩ := h
  rcases s.afterCycle_cases with ⟨-, heq⟩ | ⟨p, rest, hin, ⟨hreset, -⟩ | ⟨-, heq⟩⟩
  · exact heq
  · simp [hrst p (by simp [hin])] at hreset
  · rw [heq, State.samplePhase_of_prog (s := s.advance) p hprog,
      State.eventPhase_of_prog (s := s.advance.nop) p hprog]

/-- The output ports of a cycle in PROG that drives no strobe (R32, R125). -/
theorem cyclePorts_of_prog {u : State} (hprog : s.regs.mode = .prog)
    (hidle : u.out = Outputs.idle) :
    cyclePorts s u =
      { resValid := false, resAxis := none, resLevel := none, resOff := none
        pwmWr := false, pwmAxis := none, pwmLevel := none
        dutyHOut := s.regs.dutyH, dutyVOut := s.regs.dutyV, ledOut := s.regs.ledOn
        progReq := true, dispInvert := s.cfg.invertConst } := by
  simp [cyclePorts, hidle, Outputs.idle, State.dutyHOut, State.dutyVOut, State.ledOut,
    State.progReq, State.dispInvert, hprog]

end Prog

/-! ## The registers of a run in PROG -/

/-- The block is in PROG with the registers and the parameters of `s`, and no RESET is still to
come: what holds before every cycle of a run without RESET that begins at `s` in PROG. -/
def State.HeldInProg (s t : State) : Prop :=
  t.ProgWithoutReset ∧ t.regs = s.regs ∧ t.cfg = s.cfg

theorem State.HeldInProg.afterCycle {s t : State} (h : s.HeldInProg t) :
    s.HeldInProg t.afterCycle := by
  obtain ⟨hprog, hregs, hcfg⟩ := h
  refine ⟨hprog.afterCycle, ?_, ?_⟩ <;> rw [hprog.afterCycle_eq]
  · exact hregs
  · exact hcfg

/-- Before each cycle of a run without RESET from PROG everything is held, and the cycle is idle
(R143). -/
theorem heldInProg_of_mem_runOf {s : State} {ps : List InputPorts} (hprog : s.regs.mode = .prog)
    (hrst : ∀ p ∈ ps, p.rst = false) {c : State × State} (hc : c ∈ runOf s ps) :
    s.HeldInProg c.1 ∧ c.2 = c.1.advance.nop := by
  have hstart : s.HeldInProg (s.withInputs ps) := ⟨⟨hprog, hrst⟩, rfl, rfl⟩
  obtain ⟨hheld, hnext⟩ :=
    cycles_invariant s.HeldInProg (fun _ => State.HeldInProg.afterCycle) hstart c hc
  exact ⟨hheld, hnext.trans hheld.left.afterCycle_eq⟩

/-! ## The statements of 60_exceptions.md -/

/-- Settles O52, by the invariant `State.HeldInProg` along the run: a cycle without RESET in PROG is
an idle cycle. -/
theorem progIsAbsorbing : Obligations.ProgIsAbsorbing := by
  unfold Obligations.ProgIsAbsorbing
  refine ⟨fun s ps hprog hrst => ⟨runOf_length s ps, fun c hc => ?_⟩,
    fun s _ => ⟨_, execReset_eq s, rfl⟩⟩
  obtain ⟨⟨⟨hmode, -⟩, hregs, hcfg⟩, hnext⟩ := heldInProg_of_mem_runOf hprog hrst hc
  have hidle : c.2.out = Outputs.idle := by rw [hnext, State.nop_out]
  refine ⟨by simp [hnext, hregs], hidle, by simp [hnext, hcfg], ?_⟩
  rw [cyclePorts_of_prog hmode hidle, hregs, hcfg]

/-- Settles O15: each of the seven operations has a next state, and every step is
`State.afterCycle`. -/
theorem everyOperationIsTotal : Obligations.EveryOperationIsTotal := by
  unfold Obligations.EveryOperationIsTotal
  refine ⟨fun i s => ?_, fun s => ⟨_, step_eq_afterCycle s⟩⟩
  cases i with
  | evNone t => exact ⟨_, exec_sourceInstr .none t s⟩
  | evProg t => exact ⟨_, exec_sourceInstr .prog t s⟩
  | evLed t => exact ⟨_, exec_sourceInstr .led t s⟩
  | evPwm t => exact ⟨_, exec_sourceInstr .pwm t s⟩
  | smpH raw => exact ⟨_, exec_axisInstr .horizontal raw s⟩
  | smpV raw => exact ⟨_, exec_axisInstr .vertical raw s⟩
  | reset => exact ⟨_, execReset_eq s⟩

end Sys2Proof.Machine

/-!
# The edges of the debounce window, and RESET

The debounce compares a distance modulo `2 ^ TSW` with the window: a timestamp that has not gone
back is as far from `last_ts` as it is later (70_reset_and_hazards.md R165 to R167), one that has
wrapped keeps what is left of its distance (R169), and an older one lies a whole wrap less its age
ahead (R170). RESET writes every register and leaves outputs that only a sample can drive (R160,
R162).
-/

namespace Sys2Proof.Machine

/-! ## The elapsed time of a later, a wrapped and an older timestamp -/

/-- A timestamp that has not gone back is as much later as it reads (R71). -/
theorem elapsedInt_of_le {c : Config} {t last : Nat} (ht : t < 2 ^ c.tsw) (h : last ≤ t) :
    elapsedInt c t last = (t - last : ℕ) := by
  rw [← elapsed_eq_elapsedInt, elapsed_of_le ht h]

/-- An older timestamp reads as a whole wrap less its age (R170). -/
theorem elapsedInt_of_lt {c : Config} {t last : Nat} (hlast : last < 2 ^ c.tsw) (h : t < last) :
    elapsedInt c t last = (2 ^ c.tsw - (last - t) : ℕ) := by
  rw [← elapsed_eq_elapsedInt, elapsed_of_lt hlast h]

/-- Of a true distance `d` the timebase shows what whole wraps leave (R169). -/
theorem elapsedInt_wrapped (c : Config) (last d : Nat) :
    elapsedInt c ((last + d) % 2 ^ c.tsw) last = (d % 2 ^ c.tsw : ℕ) := by
  rw [elapsedInt, Int.natCast_mod, Int.emod_sub_emod, Nat.cast_add, add_sub_cancel_left,
    ← Int.natCast_mod]

/-! ## A toggle at either side of the window -/

section Toggle

variable {s : State} {t : Nat} {mk : Nat → Instr}

/-- A toggle from `last_ts` to 200000 after it is discarded (R166, R167). -/
theorem discarded_of_within_window (hmk : mk = Instr.evLed ∨ mk = Instr.evPwm)
    (ht : t < 2 ^ s.cfg.tsw) (h : s.regs.lastTs ≤ t) (h' : t ≤ s.regs.lastTs + 200000) :
    Discarded (mk t) s := by
  have helapsed := elapsedInt_of_le ht h
  exact discarded_of_toggle hmk (.inr (by omega))

/-- A toggle in RUN more than 200000 after `last_ts` is accepted (R167). -/
theorem acceptedAt_of_past_window (hmk : mk = Instr.evLed ∨ mk = Instr.evPwm)
    (ht : t < 2 ^ s.cfg.tsw) (hrun : s.regs.mode = .run) (h : s.regs.lastTs + 200000 < t) :
    AcceptedAt (mk t) s t := by
  have helapsed := elapsedInt_of_le ht (show s.regs.lastTs ≤ t by omega)
  exact acceptedAt_of_toggle hmk ht hrun (by omega)

/-- An accepted EV_LED moves `last_ts` to its time and inverts the LED's flag (R74). -/
theorem exec_evLed_accept (ht : t < 2 ^ s.cfg.tsw) (hlast : s.regs.lastTs < 2 ^ s.cfg.tsw)
    (hrun : s.regs.mode = .run) (h : 200000 < elapsedInt s.cfg t s.regs.lastTs) :
    exec (.evLed t) s = .next (s.setRegs (s.regs.acceptLed t)) := by
  obtain ⟨-, htoggle⟩ := evLedTogglesDebounced
  obtain ⟨haccept, -⟩ := htoggle t s ht hlast
  obtain ⟨_, hexec, -, rfl⟩ := haccept hrun h
  exact hexec

/-- An accepted EV_PWM moves `last_ts` to its time and inverts the gate (R75). -/
theorem exec_evPwm_accept (ht : t < 2 ^ s.cfg.tsw) (hlast : s.regs.lastTs < 2 ^ s.cfg.tsw)
    (hrun : s.regs.mode = .run) (h : 200000 < elapsedInt s.cfg t s.regs.lastTs) :
    exec (.evPwm t) s = .next (s.setRegs (s.regs.acceptPwm t)) := by
  obtain ⟨-, htoggle⟩ := evPwmTogglesDebounced
  obtain ⟨haccept, -⟩ := htoggle t s ht hlast
  exact haccept hrun h

end Toggle

/-! ## A cycle without a sample -/

/-- A cycle that carries no sample drives no strobe, RESET or not (R162). -/
theorem State.afterCycle_out_of_no_sample {s : State}
    (h : ∀ p rest, s.inputs = p :: rest → p.rst = true ∨ p.smpValid = false) :
    s.afterCycle.out = Outputs.idle := by
  rcases s.afterCycle_cases with ⟨-, heq⟩ | ⟨p, rest, hin, ⟨-, heq⟩ | ⟨hrst, heq⟩⟩ <;> rw [heq]
  · rfl
  · rfl
  · have hsmp : p.smpValid = false := (h p rest hin).resolve_left (by simp [hrst])
    rw [State.eventPhase_out, State.samplePhase, hsmp]
    rfl

/-! ## The statements of 70_reset_and_hazards.md -/

/-- Settles O24: without a wrap the elapsed time is the distance from `last_ts`. -/
theorem windowBoundaryIsDiscarded : Obligations.WindowBoundaryIsDiscarded := by
  unfold Obligations.WindowBoundaryIsDiscarded
  intro s mk hmk hrun hfits
  exact ⟨discarded_of_within_window hmk (by omega) (by omega) le_rfl,
    acceptedAt_of_past_window hmk hfits hrun (by omega)⟩

/-- Settles O26: both sources write the one `last_ts`, from which the other's event is measured. -/
theorem crossSourceSuppression : Obligations.CrossSourceSuppression := by
  unfold Obligations.CrossSourceSuppression
  intro s t t' hrun hlast ht hpast hle hwithin ht'
  exact ⟨⟨s.setRegs (s.regs.acceptLed t), exec_evLed_accept ht hlast hrun hpast, rfl,
      discarded_of_within_window (.inr rfl) ht' hle hwithin⟩,
    ⟨s.setRegs (s.regs.acceptPwm t), exec_evPwm_accept ht hlast hrun hpast, rfl,
      discarded_of_within_window (.inl rfl) ht' hle hwithin⟩⟩

/-- Settles O28: RESET leaves `last_ts` at 0 and the block in RUN, so the timestamp itself is the
elapsed time. -/
theorem postResetWindow : Obligations.PostResetWindow := by
  unfold Obligations.PostResetWindow
  intro s mk t hmk hreset ht
  have hlast : s.regs.lastTs = 0 := by rw [hreset, Regs.afterReset_lastTs]
  have hrun : s.regs.mode = .run := by rw [hreset, Regs.afterReset_mode]
  exact ⟨fun hwithin => discarded_of_within_window hmk ht (by omega) (by omega),
    fun hpast => acceptedAt_of_past_window hmk ht hrun (by omega)⟩

/-- Settles O29: the test sees `d % 2 ^ TSW`, which is `d` before one whole wrap and `e` after `k`
of them. -/
theorem timestampWrap : Obligations.TimestampWrap := by
  unfold Obligations.TimestampWrap
  intro s mk d hmk hrun _
  have helapsed := elapsedInt_wrapped s.cfg s.regs.lastTs d
  refine ⟨fun hd hwithin => ?_, fun hd hpast => ?_, fun k e _ he hwraps => ?_⟩
  · rw [Nat.mod_eq_of_lt hd] at helapsed
    exact discarded_of_toggle hmk (.inr (by omega))
  · rw [Nat.mod_eq_of_lt hd] at helapsed
    exact acceptedAt_of_toggle hmk (Nat.mod_lt _ (Nat.two_pow_pos _)) hrun (by omega)
  · have hfits : 200000 < 2 ^ s.cfg.tsw := Nat.lt_of_succ_lt (window_fits s.cfg)
    have hrest : d % 2 ^ s.cfg.tsw = e := by
      rw [hwraps, Nat.mul_add_mod', Nat.mod_eq_of_lt (he.trans_lt hfits)]
    exact discarded_of_toggle hmk (.inr (by omega))

/-- Settles O30: an event older by `a` has `2 ^ TSW - a` elapsed; in the spec's example the accepted
event at 400000 is the one from which 500001 is measured. -/
theorem backwardTimestamp : Obligations.BackwardTimestamp := by
  unfold Obligations.BackwardTimestamp
  refine ⟨fun s mk t hmk hrun hlast hold => ?_, fun s htsw hrun hlast => ?_⟩
  · have helapsed := elapsedInt_of_lt hlast hold
    exact ⟨fun hage => acceptedAt_of_toggle hmk (hold.trans hlast) hrun (by omega),
      fun hage => discarded_of_toggle hmk (.inr (by omega))⟩
  · have hwide : 500001 < 2 ^ s.cfg.tsw := by rw [htsw]; decide
    have helapsed : elapsedInt s.cfg 400000 s.regs.lastTs = _ :=
      elapsedInt_of_lt (by omega) (by omega)
    have hexec := exec_evLed_accept (s := s) (t := 400000) (by omega) (by omega) hrun (by omega)
    have hback : (s.setRegs (s.regs.acceptLed 400000)).regs.lastTs = 400000 := rfl
    exact ⟨_, hexec, hback, rfl,
      discarded_of_within_window (.inl rfl) hwide (by omega) (by omega)⟩

/-- Settles O56: the register-driven ports show the state RESET left, and the cycle drives a strobe
for a sample only. -/
theorem outputsAfterReset : Obligations.OutputsAfterReset := by
  unfold Obligations.OutputsAfterReset
  rintro s t ⟨⟩
  refine ⟨_, step_eq_afterCycle _, rfl, rfl, rfl, rfl, rfl, fun hnone => ?_⟩
  have hidle := State.afterCycle_out_of_no_sample hnone
  exact ⟨by rw [cyclePorts, hidle]; rfl, by rw [cyclePorts, hidle]; rfl⟩

/-- Settles O54: RESET writes the registers `Regs.afterReset`, which depend on the parameters only,
so it does not matter what it is run on, a reset block included. -/
theorem resetWritesEveryRegister : Obligations.ResetWritesEveryRegister := by
  unfold Obligations.ResetWritesEveryRegister
  refine ⟨fun _ => rfl, execReset_eq, ?_, rfl, rfl⟩
  rintro s u ⟨⟩
  exact execReset_eq _

end Sys2Proof.Machine

/-!
# The two round trips, and a line of a trace

Every operation is a source's, an axis's or RESET, and the word of each has the fields it was built
from (30_encoding.md R51 to R55). Ports that present a word alone run the operation the word decodes
to, whoever set them (R58), so a line of a trace runs its own operation (R60).
-/

namespace Sys2Proof

/-! ## The words of the operations -/

/-- The seven operations by the field that selects them (R50, R52, R54). -/
theorem Instr.eq_cases (i : Instr) :
    (∃ src t, i = EvSource.instr src t) ∨ (∃ axis raw, i = Axis.instr axis raw) ∨ i = .reset := by
  cases i with
  | evNone t => exact .inl ⟨.none, t, rfl⟩
  | evProg t => exact .inl ⟨.prog, t, rfl⟩
  | evLed t => exact .inl ⟨.led, t, rfl⟩
  | evPwm t => exact .inl ⟨.pwm, t, rfl⟩
  | smpH raw => exact .inr (.inl ⟨.horizontal, raw, rfl⟩)
  | smpV raw => exact .inr (.inl ⟨.vertical, raw, rfl⟩)
  | reset => exact .inr (.inr rfl)

@[simp] theorem encode_sourceInstr (tsw : Nat) (src : EvSource) (t : Nat) :
    encode tsw (src.instr t) = .ev (encodeEv tsw src t) := by
  cases src <;> rfl

@[simp] theorem encode_axisInstr (tsw : Nat) (axis : Axis) (raw : Sample) :
    encode tsw (axis.instr raw) = .smp (encodeSmp axis raw) := by
  cases axis <;> rfl

/-- An event can be presented exactly when the port carries its timestamp (R51). -/
theorem wellFormed_sourceInstr_iff {tsw : Nat} {src : EvSource} {t : Nat} :
    (src.instr t).wellFormed tsw = true ↔ t < 2 ^ tsw := by
  cases src <;> exact decide_eq_true_iff

@[simp] theorem wellFormed_axisInstr (tsw : Nat) (axis : Axis) (raw : Sample) :
    (axis.instr raw).wellFormed tsw = true := by
  cases axis <;> rfl

/-- The timestamp field of a word is a TSW-bit number (R51). -/
theorem evTimeField_lt (tsw : Nat) (w : BitVec (2 + tsw)) : evTimeField tsw w < 2 ^ tsw :=
  BitVec.isLt _

/-- The pin presents an operation only when it is 1, and then RESET (R55). -/
theorem decode_pin_eq_ok_iff {tsw : Nat} {w : BitVec 1} {i : Instr} :
    decode tsw (.pin w) = .ok i ↔ w = 1#1 ∧ i = .reset := by
  rw [decode]
  split_ifs with hw <;> simp [hw, eq_comm]

/-- Settles O1: the fields of a word the encoder writes are the operation's code and its operand,
and a timestamp that fits loses no bit. -/
theorem decodeInvertsEncode : Obligations.DecodeInvertsEncode := by
  unfold Obligations.DecodeInvertsEncode
  intro tsw i hwf
  rcases i.eq_cases with ⟨src, t, rfl⟩ | ⟨axis, raw, rfl⟩ | rfl
  · have ht : t < 2 ^ tsw := wellFormed_sourceInstr_iff.1 hwf
    rw [encode_sourceInstr, decode, decodeEv_eq_instr, evSrcField_encodeEv, EvSource.ofBits_bits,
      evTimeField_encodeEv, Nat.mod_eq_of_lt ht]
  · rw [encode_axisInstr, decode, decodeSmp_eq_instr, smpAxisField_encodeSmp, Axis.ofBit_bit,
      smpRawField_encodeSmp]
  · rfl

/-- Settles O2: a word is the encoding of its own fields, and its timestamp field fits. -/
theorem encodeInvertsDecode : Obligations.EncodeInvertsDecode := by
  unfold Obligations.EncodeInvertsDecode
  intro tsw w i hdec
  cases w with
  | ev w =>
    obtain rfl : decodeEv tsw w = i := Except.ok.inj hdec
    rw [decodeEv_eq_instr, encode_sourceInstr, encodeEv_fields]
    exact ⟨wellFormed_sourceInstr_iff.2 (evTimeField_lt tsw w), rfl⟩
  | smp w =>
    obtain rfl : decodeSmp w = i := Except.ok.inj hdec
    rw [decodeSmp_eq_instr, encode_axisInstr, encodeSmp_fields]
    exact ⟨wellFormed_axisInstr _ _ _, rfl⟩
  | pin w =>
    obtain ⟨rfl, rfl⟩ := decode_pin_eq_ok_iff.1 hdec
    exact ⟨rfl, rfl⟩

/-- Settles O6: each word is evaluated by the decoder. -/
theorem specWordsDecode : Obligations.SpecWordsDecode := by
  unfold Obligations.SpecWordsDecode
  exact ⟨rfl, rfl, rfl, rfl, rfl, rfl, rfl, rfl⟩

end Sys2Proof

namespace Sys2Proof.Machine

/-! ## The ports that present a word -/

section Presented

variable {p : InputPorts} {tsw : Nat}

/-- Ports that present an event word carry its code and, in their low bits, its timestamp (R51). -/
theorem InputPorts.presentsWord_ev_iff {w : BitVec (2 + tsw)} :
    p.presentsWord (.ev w) ↔ p.rst = false ∧ p.smpValid = false ∧ p.evValid = true ∧
      w = encodeEv tsw (EvSource.ofBits p.evSrc) p.evTime := by
  rw [← BitVec.toNat_inj, encodeEv_toNat, EvSource.bits_ofBits]
  exact Iff.rfl

/-- Ports that present a sample word carry its axis bit and its sample (R53). -/
theorem InputPorts.presentsWord_smp_iff {w : BitVec 13} :
    p.presentsWord (.smp w : OpWord tsw) ↔
      p.rst = false ∧ p.smpValid = true ∧ p.evValid = false ∧
      w = encodeSmp (Axis.ofBit p.smpAxis) p.smpRaw := by
  rw [← BitVec.toNat_inj, encodeSmp_toNat, Axis.bit_ofBit]
  exact Iff.rfl

/-- The ports set for a word that decodes present that word (R50, R60). -/
theorem presentsWord_portsOfWord {w : OpWord tsw} {i : Instr} (h : decode tsw w = .ok i) :
    (portsOfWord w).presentsWord w := by
  cases w with
  | ev w => exact InputPorts.presentsWord_ev_iff.2 ⟨rfl, rfl, rfl, (encodeEv_fields tsw w).symm⟩
  | smp w => exact InputPorts.presentsWord_smp_iff.2 ⟨rfl, rfl, rfl, (encodeSmp_fields w).symm⟩
  | pin w =>
    obtain ⟨rfl, -⟩ := decode_pin_eq_ok_iff.1 h
    exact ⟨rfl, rfl⟩

end Presented

/-- Settles O8: the ports name the fields of the word they present, and the operation of those
fields is the one the word decodes to. -/
theorem stepRunsTheDecodedOperation : Obligations.StepRunsTheDecodedOperation := by
  unfold Obligations.StepRunsTheDecodedOperation
  intro s p rest w i hin hword hdec
  change step s = exec i (s.withInputs rest)
  cases w with
  | ev w =>
    obtain ⟨hrst, hsmp, hev, rfl⟩ := InputPorts.presentsWord_ev_iff.1 hword
    obtain rfl := Except.ok.inj hdec
    rw [step_eventAlone hin hrst hsmp hev, exec_decodeEv, evSrcField_encodeEv,
      EvSource.ofBits_bits, evTimeField_encodeEv,
      State.event_mod (s := s.withInputs rest) (tsw := s.cfg.tsw) rfl]
  | smp w =>
    obtain ⟨hrst, hsmp, hev, rfl⟩ := InputPorts.presentsWord_smp_iff.1 hword
    obtain rfl := Except.ok.inj hdec
    rw [step_sampleAlone hin hrst hsmp hev, exec_decodeSmp, smpAxisField_encodeSmp,
      Axis.ofBit_bit, smpRawField_encodeSmp]
  | pin w =>
    obtain ⟨hrst, -⟩ := hword
    obtain ⟨-, rfl⟩ := decode_pin_eq_ok_iff.1 hdec
    exact step_reset hin hrst

/-- Settles O9: the line presents the operation's word, which decodes to the operation. -/
theorem traceLineRunsItsOperation : Obligations.TraceLineRunsItsOperation := by
  unfold Obligations.TraceLineRunsItsOperation
  intro s i hwf
  have hdec := decodeInvertsEncode s.cfg.tsw i hwf
  exact stepRunsTheDecodedOperation (s.presentNext (present s.cfg.tsw i)) _ s.inputs _ i rfl
    (presentsWord_portsOfWord hdec) hdec

/-! ## The cycles that present nothing, or RESET -/

/-- With nothing left to present a cycle is idle, and has nothing to take (R35, R176). -/
theorem State.afterCycle_of_nil {s : State} (hin : s.inputs = []) : s.afterCycle = s.nop := by
  rcases s.afterCycle_cases with ⟨-, heq⟩ | ⟨p, rest, hcons, -⟩
  · rw [heq, State.advance, hin, List.tail_nil, ← hin]
  · simp [hin] at hcons

/-- A cycle with `rst` = 1 is RESET, whatever the other ports hold (R161). -/
theorem State.afterCycle_of_reset {s : State} {p : InputPorts} {rest : List InputPorts}
    (hin : s.inputs = p :: rest) (hrst : p.rst = true) :
    s.afterCycle = (s.withInputs rest).setRegs (Regs.afterReset s.cfg) :=
  (step_eq_next_iff.1 ((step_reset hin hrst).trans (execReset_eq _))).symm

/-- Settles O11: a cycle that has nothing to take only drives its outputs idle. -/
theorem nothingPresentedChangesNothing : Obligations.NothingPresentedChangesNothing := by
  unfold Obligations.NothingPresentedChangesNothing
  intro s hin
  rw [step_eq_afterCycle, State.afterCycle_of_nil hin]
  rfl

/-- Settles O13: the cycle is the operation RESET, which writes the registers `Regs.afterReset`. -/
theorem resetOverridesThePorts : Obligations.ResetOverridesThePorts := by
  unfold Obligations.ResetOverridesThePorts
  intro s p rest hin hrst
  rw [step_eq_afterCycle, State.afterCycle_of_reset hin hrst]
  rfl

end Sys2Proof.Machine

/-!
# What an operation reads and writes

Of all that a toggle can do only its acceptance matters: accepted, it writes `last_ts` and its own
flag, and otherwise nothing (40_debounce_toggle.md R74, R75, R77). A sample reads the mode and the
gate and writes its axis's duty register (10_state.md section 4).
-/

namespace Sys2Proof

/-- The source selects a toggle: EV_LED or EV_PWM (R52). -/
abbrev EvSource.IsToggle (src : EvSource) : Prop := src = .led ∨ src = .pwm

theorem exists_toggle_instr {mk : Nat → Instr} (h : mk = Instr.evLed ∨ mk = Instr.evPwm) :
    ∃ src : EvSource, src.IsToggle ∧ mk = src.instr := by
  rcases h with rfl | rfl
  · exact ⟨.led, .inl rfl, rfl⟩
  · exact ⟨.pwm, .inr rfl, rfl⟩

end Sys2Proof

namespace Sys2Proof.Machine

/-! ## The toggles of either source -/

/-- The registers an accepted toggle of a source writes (R74, R75). -/
def Regs.accept (r : Regs) (src : EvSource) (t : Nat) : Regs :=
  match src with
  | .led => r.acceptLed t
  | .pwm => r.acceptPwm t
  | .none => r
  | .prog => r

/-- A toggle at time `t` is accepted: the block is in RUN and the window is past (R71). -/
def State.Accepts (s : State) (t : Nat) : Prop :=
  s.regs.mode = .run ∧ debounceUs < elapsed s.cfg t s.regs.lastTs

theorem State.not_accepts_of {s : State} {t : Nat}
    (h : s.regs.mode = .prog ∨ elapsed s.cfg t s.regs.lastTs ≤ debounceUs) : ¬ s.Accepts t := by
  rintro ⟨hrun, hpast⟩
  rcases h with hprog | hwithin
  · simp [hrun] at hprog
  · omega

/-- A toggle writes its registers exactly when it is accepted (R74, R75, R77). -/
theorem State.event_toggle_cases {src : EvSource} (hsrc : src.IsToggle) (s : State)
    (t : Nat) :
    (s.Accepts t ∧ s.event src t = s.setRegs (s.regs.accept src (portTime s.cfg t))) ∨
    (¬ s.Accepts t ∧ s.event src t = s.nop) := by
  rcases hsrc with rfl | rfl
  · rcases execEvLed_cases t s with ⟨hrun, hpast, heq⟩ | ⟨hnot, heq⟩
    · exact .inl ⟨⟨hrun, hpast⟩, Host.Outcome.next.inj heq⟩
    · exact .inr ⟨State.not_accepts_of hnot, Host.Outcome.next.inj heq⟩
  · rcases execEvPwm_cases t s with ⟨hrun, hpast, heq⟩ | ⟨hnot, heq⟩
    · exact .inl ⟨⟨hrun, hpast⟩, Host.Outcome.next.inj heq⟩
    · exact .inr ⟨State.not_accepts_of hnot, Host.Outcome.next.inj heq⟩

/-- Nothing has elapsed at the time that was written last. -/
theorem elapsed_portTime (c : Config) (t : Nat) : elapsed c t (portTime c t) = 0 := by
  have hlt := portTime_lt c t
  rw [elapsed, Nat.mod_eq_of_lt hlt, Nat.add_sub_of_le hlt.le, Nat.mod_self]

/-- A toggle presented again is a `nop`: an accepted one has left its own time in `last_ts`
(20_memory.md section 7). -/
theorem State.event_event_of_toggle {src : EvSource} (hsrc : src.IsToggle) (s : State)
    (t : Nat) : (s.event src t).event src t = (s.event src t).nop := by
  rcases State.event_toggle_cases hsrc s t with ⟨-, heq⟩ | ⟨hnot, heq⟩ <;> rw [heq]
  · have hlast : (s.regs.accept src (portTime s.cfg t)).lastTs = portTime s.cfg t := by
      rcases hsrc with rfl | rfl <;> rfl
    refine ((State.event_toggle_cases hsrc _ t).resolve_left ?_).right
    rintro ⟨⟨-, hpast⟩, -⟩
    rw [State.setRegs_cfg, State.setRegs_regs, hlast, elapsed_portTime] at hpast
    exact absurd hpast (Nat.not_lt_zero _)
  · rw [State.event_nop, heq]
    rfl

theorem toggledIn_eq_false_iff {s u : State} : toggledIn (s, u) = false ↔
    s.regs.ledOn = u.regs.ledOn ∧ s.regs.pwmEn = u.regs.pwmEn := by
  simp [toggledIn]

/-- A toggle that inverted a flag was accepted. -/
theorem State.event_eq_accept_of_toggled {src : EvSource} (hsrc : src.IsToggle)
    {s : State} {t : Nat} (h : toggledIn (s, s.event src t) = true) :
    s.event src t = s.setRegs (s.regs.accept src (portTime s.cfg t)) := by
  rcases State.event_toggle_cases hsrc s t with ⟨-, heq⟩ | ⟨-, heq⟩
  · exact heq
  · have hkept : toggledIn (s, s.nop) = false := toggledIn_eq_false_iff.2 ⟨rfl, rfl⟩
    rw [heq, hkept] at h
    cases h

/-- EV_PROG writes no register but the mode (R73). -/
theorem State.event_prog_regs (s : State) (t : Nat) :
    (s.event .prog t).regs = { s.regs with mode := .prog } := by
  rcases s.inRun_cases s.enterProg with ⟨-, heq⟩ | ⟨hprog, heq⟩
  · exact congrArg State.regs heq
  · exact (congrArg State.regs heq).trans (by rw [State.nop_regs, ← hprog])

/-! ## Two states that agree where an operation reads -/

/-- Acceptance reads the mode and `last_ts`. -/
theorem State.accepts_congr {s u : State} (hcfg : s.cfg = u.cfg)
    (hmode : s.regs.mode = u.regs.mode) (hlast : s.regs.lastTs = u.regs.lastTs) (t : Nat) :
    s.Accepts t ↔ u.Accepts t := by
  rw [State.Accepts, State.Accepts, hcfg, hmode, hlast]

/-- Two states that agree on mode and `last_ts` take the same toggle alike: both accept it or both
discard it. -/
theorem State.event_toggle_agree {src : EvSource} (hsrc : src.IsToggle) {s u : State}
    (hcfg : s.cfg = u.cfg) (hmode : s.regs.mode = u.regs.mode)
    (hlast : s.regs.lastTs = u.regs.lastTs) (t : Nat) :
    ((s.event src t).regs = s.regs.accept src (portTime u.cfg t) ∧
      (u.event src t).regs = u.regs.accept src (portTime u.cfg t)) ∨
    ((s.event src t).regs = s.regs ∧ (u.event src t).regs = u.regs) := by
  have hacc := State.accepts_congr hcfg hmode hlast t
  rcases State.event_toggle_cases hsrc s t with ⟨hs, heq⟩ | ⟨hs, heq⟩ <;>
    rcases State.event_toggle_cases hsrc u t with ⟨hu, heq'⟩ | ⟨hu, heq'⟩
  · exact .inl ⟨by rw [heq, hcfg]; rfl, by rw [heq']; rfl⟩
  · exact absurd (hacc.1 hs) hu
  · exact absurd (hacc.2 hu) hs
  · exact .inr ⟨by rw [heq]; rfl, by rw [heq']; rfl⟩

/-- What a toggle writes and drives reads the mode, `last_ts` and its own flag (R74, R75). -/
theorem State.event_toggle_reads {src : EvSource} {flag : Regs → Bool}
    (hflag : (src = .led ∧ flag = Regs.ledOn) ∨ (src = .pwm ∧ flag = Regs.pwmEn)) {s u : State}
    (hcfg : s.cfg = u.cfg) (hmode : s.regs.mode = u.regs.mode)
    (hlast : s.regs.lastTs = u.regs.lastTs) (hsame : flag s.regs = flag u.regs) (t : Nat) :
    (s.event src t).regs.lastTs = (u.event src t).regs.lastTs ∧
    flag (s.event src t).regs = flag (u.event src t).regs ∧
    (s.event src t).out = (u.event src t).out := by
  have hsrc : src.IsToggle := hflag.imp And.left And.left
  rw [State.event_out, State.event_out]
  rcases State.event_toggle_agree hsrc hcfg hmode hlast t with ⟨hs, hu⟩ | ⟨hs, hu⟩ <;> rw [hs, hu]
  · rcases hflag with ⟨rfl, rfl⟩ | ⟨rfl, rfl⟩ <;> exact ⟨rfl, congrArg Bool.not hsame, rfl⟩
  · exact ⟨hlast, hsame, rfl⟩

/-- Two states that agree on mode and gate show and strobe the same for a sample, and both hold the
same level or both hold what they held. -/
theorem State.sample_agree {s u : State} (hcfg : s.cfg = u.cfg)
    (hmode : s.regs.mode = u.regs.mode) (hgate : s.regs.pwmEn = u.regs.pwmEn) (axis : Axis)
    (raw : Sample) :
    (s.sample axis raw).out = (u.sample axis raw).out ∧
    ((∃ level, (s.sample axis raw).regs = s.regs.setDuty axis level ∧
        (u.sample axis raw).regs = u.regs.setDuty axis level) ∨
      ((s.sample axis raw).regs = s.regs ∧ (u.sample axis raw).regs = u.regs)) := by
  cases hu : u.regs.mode with
  | prog =>
    rw [State.sample_of_prog _ _ hu, State.sample_of_prog _ _ (hmode.trans hu)]
    exact ⟨rfl, .inr ⟨rfl, rfl⟩⟩
  | run =>
    cases hopen : u.regs.pwmEn with
    | true =>
      rw [State.sample_open _ _ hu hopen, State.sample_open _ _ (hmode.trans hu)
        (hgate.trans hopen), hcfg]
      exact ⟨rfl, .inl ⟨_, rfl, rfl⟩⟩
    | false =>
      rw [State.sample_closed _ _ hu hopen, State.sample_closed _ _ (hmode.trans hu)
        (hgate.trans hopen), hcfg]
      exact ⟨rfl, .inr ⟨rfl, rfl⟩⟩

/-- The duty register of a sample's axis agrees afterwards, or holds in both states. -/
theorem State.sample_duty_agree {s u : State} (hcfg : s.cfg = u.cfg)
    (hmode : s.regs.mode = u.regs.mode) (hgate : s.regs.pwmEn = u.regs.pwmEn) (axis : Axis)
    (raw : Sample) :
    (s.sample axis raw).out = (u.sample axis raw).out ∧
    ((s.sample axis raw).regs.duty axis = (u.sample axis raw).regs.duty axis ∨
      (s.sample axis raw).regs.duty axis = s.regs.duty axis ∧
        (u.sample axis raw).regs.duty axis = u.regs.duty axis) := by
  obtain ⟨hout, ⟨level, hs, hu⟩ | ⟨hs, hu⟩⟩ := State.sample_agree hcfg hmode hgate axis raw <;>
    rw [hs, hu]
  · rw [Regs.duty_setDuty_same, Regs.duty_setDuty_same]
    exact ⟨hout, .inl rfl⟩
  · exact ⟨hout, .inr ⟨rfl, rfl⟩⟩

/-- Two states with the same parameters and registers are the same block (10_state.md
section 7). -/
def State.SameBlock (s u : State) : Prop := s.cfg = u.cfg ∧ s.regs = u.regs

theorem State.SameBlock.sample {s u : State} (h : s.SameBlock u) (axis : Axis) (raw : Sample) :
    (s.sample axis raw).SameBlock (u.sample axis raw) ∧
      (s.sample axis raw).out = (u.sample axis raw).out := by
  obtain ⟨hcfg, hregs⟩ := h
  obtain ⟨hout, hboth⟩ := State.sample_agree hcfg (by rw [hregs]) (by rw [hregs]) axis raw
  refine ⟨⟨by rw [State.sample_cfg, State.sample_cfg, hcfg], ?_⟩, hout⟩
  rcases hboth with ⟨level, hs, hu⟩ | ⟨hs, hu⟩ <;> rw [hs, hu, hregs]

theorem Regs.withDuties_of_eq {r d : Regs} (hH : r.dutyH = d.dutyH) (hV : r.dutyV = d.dutyV) :
    r.withDuties d = r := by
  rw [Regs.withDuties, ← hH, ← hV]

theorem State.SameBlock.event {s u : State} (h : s.SameBlock u) (src : EvSource) (t : Nat) :
    (s.event src t).SameBlock (u.event src t) := by
  obtain ⟨hcfg, hregs⟩ := h
  obtain ⟨hH, hV⟩ := u.event_duties src t
  refine ⟨by rw [State.event_cfg, State.event_cfg, hcfg], ?_⟩
  calc (s.event src t).regs
      = (u.event src t).regs.withDuties u.regs := State.event_regs_withDuties hcfg hregs src t
    _ = (u.event src t).regs := Regs.withDuties_of_eq hH hV

theorem State.SameBlock.samplePhase {s u : State} (h : s.SameBlock u) (p : InputPorts) :
    (s.samplePhase p).SameBlock (u.samplePhase p) ∧
      (s.samplePhase p).out = (u.samplePhase p).out := by
  unfold State.samplePhase
  split
  · exact h.sample _ _
  · exact ⟨h, rfl⟩

theorem State.SameBlock.eventPhase {s u : State} (h : s.SameBlock u) (p : InputPorts) :
    (s.eventPhase p).SameBlock (u.eventPhase p) := by
  unfold State.eventPhase
  split
  · exact h.event _ _
  · exact h

/-- The same block in the same cycle is the same block afterwards, with the same outputs. -/
theorem State.SameBlock.afterCycle {s u : State} (h : s.SameBlock u)
    (hhead : s.inputs.head? = u.inputs.head?) :
    s.afterCycle.SameBlock u.afterCycle ∧ s.afterCycle.out = u.afterCycle.out := by
  cases hs : s.inputs with
  | nil =>
    have hu : u.inputs = [] := List.head?_eq_none_iff.1 (by rw [← hhead, hs, List.head?_nil])
    rw [State.afterCycle_of_nil hs, State.afterCycle_of_nil hu]
    exact ⟨h, rfl⟩
  | cons p rest =>
    obtain ⟨rest', hu⟩ : ∃ rest', u.inputs = p :: rest' :=
      List.head?_eq_some_iff.1 (by rw [← hhead, hs, List.head?_cons])
    cases hrst : p.rst with
    | true =>
      obtain ⟨hcfg, -⟩ := h
      rw [State.afterCycle_of_reset hs hrst, State.afterCycle_of_reset hu hrst]
      exact ⟨⟨hcfg, congrArg Regs.afterReset hcfg⟩, rfl⟩
    | false =>
      have hblock : (s.withInputs rest).SameBlock (u.withInputs rest') := h
      obtain ⟨hsame, hout⟩ := hblock.samplePhase p
      rw [State.afterCycle_eq_phases hs hrst, State.afterCycle_eq_phases hu hrst,
        State.eventPhase_out, State.eventPhase_out]
      exact ⟨hsame.eventPhase p, hout⟩

/-! ## The statements of 10_state.md and 20_memory.md -/

/-- Settles O14: each phase of a cycle takes the same block to the same block. -/
theorem stepHasNoHiddenState : Obligations.StepHasNoHiddenState := by
  unfold Obligations.StepHasNoHiddenState
  intro s₁ s₂ hcfg hregs hhead
  obtain ⟨⟨-, hregs'⟩, hout⟩ := State.SameBlock.afterCycle ⟨hcfg, hregs⟩ hhead
  exact ⟨_, _, step_eq_afterCycle s₁, step_eq_afterCycle s₂, hregs', hout, s₁.afterCycle_cfg,
    s₁.afterCycle_inputs⟩

/-- An operation keeps the parameters and the cycles still to come (R18, R35). -/
theorem exec_cfg_inputs {i : Instr} {s u : State} (h : exec i s = .next u) :
    u.cfg = s.cfg ∧ u.inputs = s.inputs := by
  rcases i.eq_cases with ⟨src, t, rfl⟩ | ⟨axis, raw, rfl⟩ | rfl
  · obtain rfl := Host.Outcome.next.inj ((exec_sourceInstr src t s).symm.trans h)
    exact ⟨s.event_cfg src t, s.event_inputs src t⟩
  · obtain rfl := Host.Outcome.next.inj ((exec_axisInstr axis raw s).symm.trans h)
    exact ⟨s.sample_cfg axis raw, s.sample_inputs axis raw⟩
  · obtain rfl := Host.Outcome.next.inj h
    exact ⟨rfl, rfl⟩

/-- A sample leaves the flags, `last_ts`, the mode and the other axis's register alone (R102,
R103). -/
theorem State.sample_frame (s : State) {axis other : Axis} (hne : other ≠ axis) (raw : Sample) :
    (s.sample axis raw).regs.lastTs = s.regs.lastTs ∧
    (s.sample axis raw).regs.ledOn = s.regs.ledOn ∧
    (s.sample axis raw).regs.pwmEn = s.regs.pwmEn ∧
    (s.sample axis raw).regs.mode = s.regs.mode ∧
    (s.sample axis raw).regs.duty other = s.regs.duty other := by
  rcases s.sample_regs_cases axis raw with ⟨-, -, hregs⟩ | ⟨hregs, -⟩ <;> rw [hregs]
  · exact ⟨Regs.setDuty_lastTs _ _ _, Regs.setDuty_ledOn _ _ _, Regs.setDuty_pwmEn _ _ _,
      Regs.setDuty_mode _ _ _, Regs.duty_setDuty_other _ _ _ _ hne⟩
  · exact ⟨rfl, rfl, rfl, rfl, rfl⟩

/-- Settles O21: an event writes the mode, or `last_ts` and its own flag, or nothing; a sample its
axis's duty register or nothing. -/
theorem operationsWriteOnlyTheirRegisters : Obligations.OperationsWriteOnlyTheirRegisters := by
  unfold Obligations.OperationsWriteOnlyTheirRegisters
  refine fun s u => ⟨fun i => exec_cfg_inputs, ?_, ?_, ?_, ?_, ?_, ?_⟩
  · rintro t ⟨⟩
    exact ⟨rfl, rfl⟩
  · rintro t hexec
    obtain rfl : s.event .prog t = u := Host.Outcome.next.inj hexec
    rw [State.event_prog_regs, State.event_out]
    exact ⟨rfl, rfl, rfl, rfl, rfl, rfl⟩
  · rintro t hexec
    obtain rfl : s.event .led t = u := Host.Outcome.next.inj hexec
    rcases State.event_toggle_cases (.inl rfl) s t with ⟨-, heq⟩ | ⟨-, heq⟩ <;> rw [heq] <;>
      exact ⟨rfl, rfl, rfl, rfl, rfl⟩
  · rintro t hexec
    obtain rfl : s.event .pwm t = u := Host.Outcome.next.inj hexec
    rcases State.event_toggle_cases (.inr rfl) s t with ⟨-, heq⟩ | ⟨-, heq⟩ <;> rw [heq] <;>
      exact ⟨rfl, rfl, rfl, rfl, rfl⟩
  · rintro raw ⟨⟩
    exact s.sample_frame (axis := .horizontal) (other := .vertical) nofun raw
  · rintro raw ⟨⟩
    exact s.sample_frame (axis := .vertical) (other := .horizontal) nofun raw

/-- Settles O22: an event drives nothing, and its acceptance reads the mode and `last_ts`; a sample
reads the mode and the gate; RESET reads the parameters only. -/
theorem operationsReadOnlyTheirRegisters : Obligations.OperationsReadOnlyTheirRegisters := by
  unfold Obligations.OperationsReadOnlyTheirRegisters
  refine fun s₁ s₂ u₁ u₂ hcfg => ⟨?_, ?_, ?_, ?_, ?_, ?_, ?_⟩
  · rintro t ⟨⟩ ⟨⟩
    rfl
  · rintro t - hexec₁ hexec₂
    obtain rfl : s₁.event .prog t = u₁ := Host.Outcome.next.inj hexec₁
    obtain rfl : s₂.event .prog t = u₂ := Host.Outcome.next.inj hexec₂
    rw [State.event_prog_regs, State.event_prog_regs, State.event_out, State.event_out]
    exact ⟨rfl, rfl⟩
  · rintro t hmode hlast hflag ⟨⟩ ⟨⟩
    exact State.event_toggle_reads (.inl ⟨rfl, rfl⟩) hcfg hmode hlast hflag t
  · rintro t hmode hlast hflag ⟨⟩ ⟨⟩
    exact State.event_toggle_reads (.inr ⟨rfl, rfl⟩) hcfg hmode hlast hflag t
  · rintro raw hmode hgate ⟨⟩ ⟨⟩
    exact State.sample_duty_agree hcfg hmode hgate .horizontal raw
  · rintro raw hmode hgate ⟨⟩ ⟨⟩
    exact State.sample_duty_agree hcfg hmode hgate .vertical raw
  · rintro ⟨⟩ ⟨⟩
    exact ⟨congrArg Regs.afterReset hcfg, rfl⟩

/-- Settles O20: of a timestamp only the low TSW bits reach an event. -/
theorem wideTimestampsAreTruncated : Obligations.WideTimestampsAreTruncated := by
  unfold Obligations.WideTimestampsAreTruncated
  intro t s
  have hlow : ∀ src : EvSource,
      exec (src.instr t) s = exec (src.instr (t % 2 ^ s.cfg.tsw)) s := fun src => by
    rw [exec_sourceInstr, exec_sourceInstr, State.event_mod rfl]
  exact ⟨hlow .none, hlow .prog, hlow .led, hlow .pwm⟩

/-- Settles O31: each accepted toggle inverts its own flag and keeps the other. -/
theorem twoAcceptedTogglesRestoreTheFlags : Obligations.TwoAcceptedTogglesRestoreTheFlags := by
  unfold Obligations.TwoAcceptedTogglesRestoreTheFlags
  intro s u v mk t t' hmk hexec htoggled hexec' htoggled'
  obtain ⟨src, hsrc, rfl⟩ := exists_toggle_instr hmk
  obtain rfl := Host.Outcome.next.inj ((exec_sourceInstr src t s).symm.trans hexec)
  obtain rfl := Host.Outcome.next.inj ((exec_sourceInstr src t' _).symm.trans hexec')
  rw [State.event_eq_accept_of_toggled hsrc htoggled',
    State.event_eq_accept_of_toggled hsrc htoggled]
  rcases hsrc with rfl | rfl
  · exact ⟨Bool.not_not _, rfl⟩
  · exact ⟨rfl, Bool.not_not _⟩

/-- A sample presented again leaves the same state: the level held is the level it writes. -/
theorem State.sample_sample (s : State) (axis : Axis) (raw : Sample) :
    (s.sample axis raw).sample axis raw = s.sample axis raw := by
  cases hmode : s.regs.mode with
  | prog =>
    rw [State.sample_of_prog _ _ hmode]
    exact State.sample_of_prog (s := s.nop) axis raw hmode
  | run =>
    cases hgate : s.regs.pwmEn with
    | false =>
      rw [State.sample_closed _ _ hmode hgate]
      exact State.sample_closed axis raw hmode hgate
    | true =>
      rw [State.sample_open _ _ hmode hgate, State.sample_open axis raw
        ((Regs.setDuty_mode _ _ _).trans hmode) ((Regs.setDuty_pwmEn _ _ _).trans hgate)]
      cases axis <;> rfl

/-- Settles O32: the second toggle has nothing elapsed or is discarded as the first was; the second
sample writes the level already held. -/
theorem secondPresentationChangesNothing : Obligations.SecondPresentationChangesNothing := by
  unfold Obligations.SecondPresentationChangesNothing
  refine ⟨fun s u mk t hmk hexec => ?_, fun s u raw => ⟨?_, ?_⟩⟩
  · obtain ⟨src, hsrc, rfl⟩ := exists_toggle_instr hmk
    obtain rfl := Host.Outcome.next.inj ((exec_sourceInstr src t s).symm.trans hexec)
    exact (exec_sourceInstr src t _).trans
      (congrArg Host.Outcome.next (State.event_event_of_toggle hsrc s t))
  · rintro ⟨⟩
    exact congrArg Host.Outcome.next (s.sample_sample .horizontal raw)
  · rintro ⟨⟩
    exact congrArg Host.Outcome.next (s.sample_sample .vertical raw)

end Sys2Proof.Machine

/-!
# The counting law

While the timestamps do not go back, `last_ts` is at most every time still to come, so what has
elapsed is the plain distance, and a toggle in RUN is accepted when that is past the window
(40_debounce_toggle.md section 3). Every acceptance moves `last_ts` up to its own time.
-/

namespace Sys2Proof.Machine

/-! ## The toggle of a cycle -/

theorem InputPorts.togglePresented_iff {p : InputPorts} : p.togglePresented = true ↔
    p.rst = false ∧ p.evValid = true ∧ (EvSource.ofBits p.evSrc).IsToggle := by
  simp [InputPorts.togglePresented, and_assoc]

/-- The sample phase writes duty registers only (R102, R103). -/
theorem State.samplePhase_regs_eq_withDuties (s : State) (p : InputPorts) :
    (s.samplePhase p).regs = s.regs.withDuties (s.samplePhase p).regs := by
  unfold State.samplePhase
  split
  · exact s.sample_regs_eq_withDuties _ _
  · rfl

/-- A cycle with an event leaves the event's registers, but for the duties of the sample phase
(R38). -/
theorem State.phases_regs_of_event (s : State) {p : InputPorts} (hev : p.evValid = true) :
    ((s.samplePhase p).eventPhase p).regs =
      (s.event (EvSource.ofBits p.evSrc) p.evTime).regs.withDuties (s.samplePhase p).regs := by
  rw [State.eventPhase, if_pos hev]
  exact State.event_regs_withDuties (s.samplePhase_cfg p) (s.samplePhase_regs_eq_withDuties p) _ _

/-- A cycle without RESET that presents no toggle keeps both flags and `last_ts`. -/
theorem State.phases_of_no_toggle (s : State) {p : InputPorts} (hrst : p.rst = false)
    (h : p.togglePresented = false) :
    toggledIn (s, (s.samplePhase p).eventPhase p) = false ∧
      ((s.samplePhase p).eventPhase p).regs.lastTs = s.regs.lastTs := by
  obtain ⟨hled, hpwm⟩ := s.samplePhase_flags p
  have hlast := s.samplePhase_lastTs p
  have hother : p.evValid = true → ¬ (EvSource.ofBits p.evSrc).IsToggle := fun hev hsrc =>
    Bool.eq_false_iff.1 h (InputPorts.togglePresented_iff.2 ⟨hrst, hev, hsrc⟩)
  rw [toggledIn_eq_false_iff]
  rcases (s.samplePhase p).eventPhase_cases p with hregs |
      ⟨hev, -, ⟨-, hregs⟩ | ⟨hsrc, -⟩ | ⟨hsrc, -⟩⟩
  · rw [hregs]
    exact ⟨⟨hled.symm, hpwm.symm⟩, hlast⟩
  · rw [hregs]
    exact ⟨⟨hled.symm, hpwm.symm⟩, hlast⟩
  · exact absurd (.inl (ofBits_eq_iff.2 hsrc)) (hother hev)
  · exact absurd (.inr (ofBits_eq_iff.2 hsrc)) (hother hev)

/-- A cycle that presents a toggle accepts it, or keeps both flags and `last_ts` (R74, R75, R77). -/
theorem State.phases_of_toggle (s : State) {p : InputPorts} (h : p.togglePresented = true) :
    (s.Accepts p.evTime ∧ toggledIn (s, (s.samplePhase p).eventPhase p) = true ∧
      ((s.samplePhase p).eventPhase p).regs.lastTs = portTime s.cfg p.evTime) ∨
    (¬ s.Accepts p.evTime ∧ toggledIn (s, (s.samplePhase p).eventPhase p) = false ∧
      ((s.samplePhase p).eventPhase p).regs.lastTs = s.regs.lastTs) := by
  obtain ⟨-, hev, hsrc⟩ := InputPorts.togglePresented_iff.1 h
  have hregs := s.phases_regs_of_event hev
  rcases State.event_toggle_cases hsrc s p.evTime with ⟨hacc, heq⟩ | ⟨hnot, heq⟩ <;>
    rw [heq] at hregs <;> rw [toggledIn, hregs]
  · refine .inl ⟨hacc, ?_⟩
    rcases hsrc with hsrc | hsrc <;> rw [hsrc]
    · exact ⟨decide_eq_true (.inl (Bool.self_ne_not _)), rfl⟩
    · exact ⟨decide_eq_true (.inr (Bool.self_ne_not _)), rfl⟩
  · exact .inr ⟨hnot, toggledIn_eq_false_iff.2 ⟨rfl, rfl⟩, rfl⟩

/-- A cycle without RESET accepts the toggle it presents, which inverts a flag and moves `last_ts`,
or it accepts none and keeps both flags and `last_ts`. -/
theorem State.afterCycle_toggle_cases {s : State} (h : s.WithoutReset) :
    (∃ p rest, s.inputs = p :: rest ∧ p.togglePresented = true ∧ s.Accepts p.evTime ∧
      toggledIn (s, s.afterCycle) = true ∧
      s.afterCycle.regs.lastTs = portTime s.cfg p.evTime) ∨
    ((∀ p rest, s.inputs = p :: rest → p.togglePresented = true → ¬ s.Accepts p.evTime) ∧
      toggledIn (s, s.afterCycle) = false ∧ s.afterCycle.regs.lastTs = s.regs.lastTs) := by
  cases hin : s.inputs with
  | nil =>
    rw [State.afterCycle_of_nil hin]
    exact .inr ⟨nofun, toggledIn_eq_false_iff.2 ⟨rfl, rfl⟩, rfl⟩
  | cons p rest =>
    have hrst : p.rst = false := h p (by simp [hin])
    rw [State.afterCycle_eq_phases hin hrst]
    cases htoggle : p.togglePresented with
    | true =>
      rcases (s.withInputs rest).phases_of_toggle htoggle with ⟨hacc, hkept⟩ | ⟨hnot, hkept⟩
      · exact .inl ⟨p, rest, rfl, htoggle, hacc, hkept⟩
      · refine .inr ⟨?_, hkept⟩
        rintro _ _ ⟨⟩ -
        exact hnot
    | false =>
      refine .inr ⟨?_, (s.withInputs rest).phases_of_no_toggle hrst htoggle⟩
      rintro _ _ ⟨⟩ hpresented
      simp [htoggle] at hpresented

/-! ## Toggles in the order of their times -/

theorem toggleTimes_cons_of_presented {p : InputPorts} (rest : List InputPorts)
    (h : p.togglePresented = true) : toggleTimes (p :: rest) = p.evTime :: toggleTimes rest := by
  rw [toggleTimes, List.filter_cons_of_pos h]
  rfl

theorem toggleTimes_tail_sublist (ps : List InputPorts) :
    (toggleTimes ps.tail).Sublist (toggleTimes ps) :=
  ((List.tail_sublist ps).filter _).map _

/-- No RESET is still to come, every toggle still to come has a time the port carries, and
`last_ts` and these times are in order. -/
def State.TogglesInOrder (s : State) : Prop :=
  s.WithoutReset ∧ (∀ t ∈ toggleTimes s.inputs, t < 2 ^ s.cfg.tsw) ∧
    (s.regs.lastTs :: toggleTimes s.inputs).Pairwise (· ≤ ·)

namespace State.TogglesInOrder

variable {s : State} {p : InputPorts} {rest : List InputPorts}

/-- The time of the toggle presented reaches the block as it is. -/
theorem portTime_eq (h : s.TogglesInOrder) (hin : s.inputs = p :: rest)
    (htoggle : p.togglePresented = true) : portTime s.cfg p.evTime = p.evTime := by
  obtain ⟨-, hfits, -⟩ := h
  rw [hin, toggleTimes_cons_of_presented rest htoggle] at hfits
  exact portTime_of_fits (hfits _ List.mem_cons_self)

/-- In order, acceptance compares the plain distance from `last_ts` with the window. -/
theorem accepts_iff (h : s.TogglesInOrder) (hin : s.inputs = p :: rest)
    (htoggle : p.togglePresented = true) :
    s.Accepts p.evTime ↔ s.regs.mode = .run ∧ s.regs.lastTs + 200000 < p.evTime := by
  obtain ⟨-, hfits, horder⟩ := h
  rw [hin, toggleTimes_cons_of_presented rest htoggle] at hfits horder
  have hle : s.regs.lastTs ≤ p.evTime := List.rel_of_pairwise_cons horder List.mem_cons_self
  rw [State.Accepts, elapsed_of_le (hfits _ List.mem_cons_self) hle, lt_tsub_iff_left]

/-- An accepted toggle is the next of the times in order, and otherwise `last_ts` stays. -/
theorem afterCycle (h : s.TogglesInOrder) : s.afterCycle.TogglesInOrder := by
  have hcases := State.afterCycle_toggle_cases h.left
  have htime := fun p rest => h.portTime_eq (p := p) (rest := rest)
  obtain ⟨hrst, hfits, horder⟩ := h
  have htail := toggleTimes_tail_sublist s.inputs
  refine ⟨hrst.afterCycle, ?_, ?_⟩ <;> rw [State.afterCycle_inputs]
  · rw [State.afterCycle_cfg]
    exact fun t ht => hfits t (htail.subset ht)
  · rcases hcases with ⟨p, rest, hin, htoggle, -, -, hlast⟩ | ⟨-, -, hlast⟩ <;> rw [hlast]
    · rw [htime p rest hin htoggle, hin, List.tail_cons]
      rw [hin, toggleTimes_cons_of_presented rest htoggle] at horder
      exact horder.of_cons
    · exact horder.sublist (htail.cons_cons _)

/-- In RUN the toggle presented is accepted exactly when it is past the window, and then moves
`last_ts` to its time. -/
theorem toggledIn_iff (h : s.TogglesInOrder) (hin : s.inputs = p :: rest)
    (htoggle : p.togglePresented = true) (hrun : s.regs.mode = .run) :
    (toggledIn (s, s.afterCycle) = true ↔ s.regs.lastTs + 200000 < p.evTime) ∧
      (toggledIn (s, s.afterCycle) = true → s.afterCycle.regs.lastTs = p.evTime) := by
  have haccepts := h.accepts_iff hin htoggle
  rcases State.afterCycle_toggle_cases h.left with
    ⟨p', rest', hin', -, hacc, htoggled, hlast⟩ | ⟨hnone, hkept, -⟩
  · obtain ⟨rfl, rfl⟩ := List.cons.inj (hin.symm.trans hin')
    obtain ⟨-, hpast⟩ := haccepts.1 hacc
    exact ⟨iff_of_true htoggled hpast, fun _ => hlast.trans (h.portTime_eq hin htoggle)⟩
  · have hnot : ¬ s.regs.lastTs + 200000 < p.evTime := fun hpast =>
      hnone p rest hin htoggle (haccepts.2 ⟨hrun, hpast⟩)
    rw [hkept]
    exact ⟨iff_of_false nofun hnot, nofun⟩

end State.TogglesInOrder

/-! ## The accepted times of a run -/

theorem acceptedTimes_cons_of_toggled {c : State × State} (cs : List (State × State))
    (h : toggledIn c = true) : acceptedTimes (c :: cs) = drivenTime c :: acceptedTimes cs := by
  rw [acceptedTimes, List.filter_cons_of_pos h]
  rfl

theorem acceptedTimes_cons_of_kept {c : State × State} (cs : List (State × State))
    (h : toggledIn c = false) : acceptedTimes (c :: cs) = acceptedTimes cs := by
  rw [acceptedTimes, List.filter_cons_of_neg (by simp [h])]
  rfl

/-- The accepted times of a run are past each other's windows, and past that of the `last_ts` it
begins with. -/
theorem acceptedTimes_apart {s : State} (h : s.TogglesInOrder) (k : Nat) :
    (s.regs.lastTs :: acceptedTimes (cycles k s)).Pairwise (fun a b => a + 200000 < b) := by
  induction k generalizing s with
  | zero => exact List.pairwise_singleton _ _
  | succ k ih =>
    have hlater := ih h.afterCycle
    rw [cycles_succ]
    rcases State.afterCycle_toggle_cases h.left with
      ⟨p, rest, hin, htoggle, hacc, htoggled, hlast⟩ | ⟨-, hkept, hlast⟩
    · have hdriven : drivenTime (s, s.afterCycle) = p.evTime := by rw [drivenTime, hin]
      obtain ⟨-, hpast⟩ := (h.accepts_iff hin htoggle).1 hacc
      rw [hlast, h.portTime_eq hin htoggle] at hlater
      rw [acceptedTimes_cons_of_toggled _ htoggled, hdriven]
      refine List.pairwise_cons.2 ⟨List.forall_mem_cons.2 ⟨hpast, fun t ht => ?_⟩, hlater⟩
      have hnext : p.evTime + 200000 < t := List.rel_of_pairwise_cons hlater ht
      omega
    · rw [acceptedTimes_cons_of_kept _ hkept, ← hlast]
      exact hlater

/-- Settles O27, by the invariant `State.TogglesInOrder` along the run: it holds at the reset
registers, whose `last_ts` is 0, and every cycle keeps it. -/
theorem countingLaw : Obligations.CountingLaw := by
  unfold Obligations.CountingLaw
  intro s ps hreset hrst hfits horder
  have hzero : s.regs.lastTs = 0 := by rw [hreset, Regs.afterReset_lastTs]
  have hstart : (s.withInputs ps).TogglesInOrder :=
    ⟨hrst, hfits, List.pairwise_cons.2 ⟨fun t _ => hzero ▸ Nat.zero_le t, horder⟩⟩
  refine ⟨runOf_length s ps, (acceptedTimes_apart hstart ps.length).of_cons, ?_⟩
  intro c hc p rest hin htoggle hrun
  obtain ⟨hkept, hnext⟩ := cycles_invariant State.TogglesInOrder
    (fun _ => State.TogglesInOrder.afterCycle) hstart c hc
  obtain ⟨before, after⟩ := c
  obtain rfl : after = before.afterCycle := hnext
  exact hkept.toggledIn_iff hin htoggle hrun

end Sys2Proof.Machine

/-!
# The legal parameters, their clamp, and the register ranges

An instantiation has one of the two pairs of vertical divisors (00_scope.md R6). With the
alternative pair the clamp acts at the low end of the stick (41_brightness_mapper.md R98). The
register ranges hold after reset and every cycle keeps them (10_state.md R10, R21).
-/

namespace Sys2Proof

/-- A pair of divisors is legal exactly as the pair of an assignment (R6). -/
theorem VDivs.ofPair_eq_some_iff {above below : Nat} {v : VDivs} :
    VDivs.ofPair above below = some v ↔ v.above = above ∧ v.below = below := by
  constructor
  · unfold VDivs.ofPair
    split_ifs with hlisted hswapped
    · rintro ⟨⟩
      exact hlisted.imp Eq.symm Eq.symm
    · rintro ⟨⟩
      exact hswapped.imp Eq.symm Eq.symm
    · exact nofun
  · rintro ⟨rfl, rfl⟩
    cases v <;> rfl

/-- An instantiation is the configuration with the values written down (R6, U16, U17). -/
theorem RawConfig.build_eq_ok_iff {r : RawConfig} {c : Config} : r.build = .ok c ↔
    c.tsw = r.tsw ∧ c.vDivs.above = r.vDivAbove ∧ c.vDivs.below = r.vDivBelow ∧
    c.rstLedOn = r.rstLedOn ∧ c.rstPwmEn = r.rstPwmEn ∧ c.invertConst = r.invertConst := by
  unfold RawConfig.build
  constructor
  · intro hbuild
    split at hbuild
    · split at hbuild
      · next v hv =>
        obtain ⟨habove, hbelow⟩ := VDivs.ofPair_eq_some_iff.1 hv
        obtain rfl := Except.ok.inj hbuild
        exact ⟨rfl, habove, hbelow, rfl, rfl, rfl⟩
      · cases hbuild
    · cases hbuild
  · obtain ⟨tsw, v, rstLedOn, rstPwmEn, invertConst, hlegal⟩ := c
    rintro ⟨rfl, habove, hbelow, rfl, rfl, rfl⟩
    rw [dif_pos hlegal, VDivs.ofPair_eq_some_iff.2 ⟨habove, hbelow⟩]

/-- Settles O7: the configuration built has the values written down, and its own values are
legal. -/
theorem onlyLegalConfigurationsBuild : Obligations.OnlyLegalConfigurationsBuild := by
  unfold Obligations.OnlyLegalConfigurationsBuild
  refine fun r => ⟨⟨?_, ?_⟩, fun c => RawConfig.build_eq_ok_iff.1⟩
  · rintro ⟨c, hbuild⟩
    obtain ⟨htsw, habove, hbelow, -⟩ := RawConfig.build_eq_ok_iff.1 hbuild
    refine ⟨htsw ▸ c.tsw_legal, ?_⟩
    rw [← habove, ← hbelow]
    cases c.vDivs with
    | listed => exact .inl ⟨rfl, rfl⟩
    | swapped => exact .inr ⟨rfl, rfl⟩
  · rintro ⟨htsw, ⟨habove, hbelow⟩ | ⟨habove, hbelow⟩⟩
    · exact ⟨⟨r.tsw, .listed, r.rstLedOn, r.rstPwmEn, r.invertConst, htsw⟩,
        RawConfig.build_eq_ok_iff.2 ⟨rfl, habove.symm, hbelow.symm, rfl, rfl, rfl⟩⟩
    · exact ⟨⟨r.tsw, .swapped, r.rstLedOn, r.rstPwmEn, r.invertConst, htsw⟩,
        RawConfig.build_eq_ok_iff.2 ⟨rfl, habove.symm, hbelow.symm, rfl, rfl, rfl⟩⟩

end Sys2Proof

namespace Sys2Proof.Machine

/-! ## The alternative divisors -/

section Swapped

variable {c : Config} {raw : Sample}

/-- With the alternative divisor a sample of at most 111 is at full scale (R98, R174). -/
theorem mapSample_vBelow_swapped_full (hv : c.vDivs = .swapped) (h : raw.toNat ≤ 111) :
    mapSample c .vertical raw = .rising .vBelow 30 1988 1988 := by
  rw [mapSample_vBelow c (by omega), hv, VDivs.below, Nat.min_eq_right (by omega)]

/-- From 112 to the centre the clamp is inert (R98). -/
theorem mapSample_vBelow_swapped (hv : c.vDivs = .swapped) (h : 111 < raw.toNat)
    (h' : raw.toNat ≤ 2100) :
    mapSample c .vertical raw = .rising .vBelow 30 (2100 - raw.toNat) 1988 := by
  rw [mapSample_vBelow c h', hv, VDivs.below, Nat.min_eq_left (by omega)]

/-- With the alternative divisor no sample above the centre reaches the clamp (R97). -/
theorem mapSample_vAbove_swapped (hv : c.vDivs = .swapped) (h : 2100 < raw.toNat) :
    mapSample c .vertical raw = .falling .vAbove 30 (raw.toNat - 2100) 2100 := by
  have hraw : raw.toNat < 4096 := raw.isLt
  rw [mapSample_vAbove c h, hv, VDivs.above, Nat.min_eq_left (by omega)]

end Swapped

/-- Settles O41: at 0..111 the reading is the one at full scale, elsewhere it is unclamped. -/
theorem alternativeDivisorsClampBelow : Obligations.AlternativeDivisorsClampBelow := by
  unfold Obligations.AlternativeDivisorsClampBelow
  refine fun c raw hv => ⟨fun h => ?_, fun h h' => ?_, fun h => ?_⟩
  · rw [mapSample_vBelow_swapped_full hv h]
    exact ⟨rfl, rfl, by omega, by omega, by omega⟩
  · rw [mapSample_vBelow_swapped hv h h']
    rfl
  · rw [mapSample_vAbove_swapped hv h]
    rfl

/-! ## After reset, and from cycle to cycle -/

/-- Settles O58: neither phase of a cycle takes a register out of its range, and RESET puts every
register in it. -/
theorem everyStepKeepsTheRegisterRanges : Obligations.EveryStepKeepsTheRegisterRanges := by
  unfold Obligations.EveryStepKeepsTheRegisterRanges
  intro s u hwf hstep
  obtain rfl := step_eq_next_iff.1 hstep
  exact State.afterCycle_wf hwf

/-- Settles O59: the reset registers are in range whatever the parameters. -/
theorem resetHasTheRegisterRanges : Obligations.ResetHasTheRegisterRanges := by
  unfold Obligations.ResetHasTheRegisterRanges
  exact ⟨State.wf_of_regs_eq_afterReset rfl, fun c =>
    State.wf_of_regs_eq_afterReset (State.resetWith_regs c)⟩

/-- Settles O55: the fields are those of RESET at the default parameters, and RESET on the reset
state writes the registers it has. -/
theorem machineStartsAfterReset : Obligations.MachineStartsAfterReset := by
  unfold Obligations.MachineStartsAfterReset
  exact ⟨rfl, rfl, rfl, rfl, rfl, execReset_eq State.reset⟩

end Sys2Proof.Machine
